-- ==== Sys2Proof/Word.lean ====
section
/-! DEFINITION. The word types of the block (00_scope.md R6, R10): every value is an unsigned bit vector of a
stated width. -/

namespace Sys2Proof

/-- A 32-bit word: the host port's data and response (R37, R48, R53). -/
abbrev Word := BitVec 32

/-- The 32-bit frame (FRAME_BITS, R6, R55). -/
abbrev Frame := BitVec 32

/-- An event word: EVENT_WORD_BITS = 35 (R6, R48). -/
abbrev EventWord := BitVec 35

/-- The 3-bit field `state[2:0]` (STATE_BITS, R6, R15). -/
abbrev PhaseCode := BitVec 3

/-- The 5-bit counter `ticks` (TICKS_BITS, R6, R16). -/
abbrev TickCount := BitVec 5

/-- The 6-bit counter `index` (INDEX_BITS, R6, R17). -/
abbrev BitIndex := BitVec 6

/-- A word of `opcode_table.json` (R58): the four rows of format EVENT are read from an event word, the seven rows of
format STATE from the 3-bit field `state[2:0]`. -/
inductive TableWord where
  | event (ev : EventWord)
  | phase (code : PhaseCode)
  deriving DecidableEq, Repr

end Sys2Proof
end

