-- ==== Sys2Proof/Config.lean ====
section
/-! DEFINITION. What is fixed for the machine, and the free values: constants with no body, of which nothing can be
proved but what holds of every value. -/

namespace Sys2Proof.Config

/-- The default of the implementation parameter FINAL_DM_EMITS, "the spec's normative reading" (00_scope.md R7). The
parameter itself is a field of State, so that both values are in the model (log entry 4). -/
def finalDmEmitsDefault : Bool := false

/-- BASE_UNIT_US: microseconds per tick (R6, R8); no step reads it. -/
def baseUnitUs : Nat := 560

/-- CARRIER_HZ: the carrier's frequency (R6, R8); no step reads it. -/
def carrierHz : Nat := 38000

/-- CARRIER_DUTY, per cent: OPEN (R6, 92_eei_decisions.md D13); no step reads it. -/
opaque carrierDuty : Nat

/-- FREE VALUE (log entry 1): what the agents do next, when State lists no event: issue an event word, or nothing. Which
agent's event comes next, and with which data, is the model's non-determinism (R12, R43 d). -/
opaque nextEvent : Nat → Option EventWord

/-- FREE VALUE (log entry 6): `ticks + 1` where 5 bits do not hold it (R10, R16: never in a run from reset). -/
opaque freeTicks : Nat → TickCount

/-- FREE VALUE (log entry 6): `index + 1` where 6 bits do not hold it (R10, R17: never in a run from reset). -/
opaque freeIndex : Nat → BitIndex

end Sys2Proof.Config
end

