-- ==== Sys2Proof/Syntax.lean ====
section
/-! DEFINITION. The syntax: the phases, the agents, and one constructor of Instr per row of spec/opcode_table.json. -/

namespace Sys2Proof

/-- The seven phases, "an enumeration describing the current phase" (10_state.md R15), in the source's order. -/
inductive Phase where
  | hm   -- header-mark
  | hs   -- header-space
  | dm   -- data-mark
  | dhs  -- data-high-space
  | dls  -- data-low-space
  | fm   -- footer-mark
  | fs   -- footer-space
  deriving DecidableEq, Repr

/-- The agents that issue events (00_scope.md R5, 30_encoding.md R49). -/
inductive Agent where
  | envelopeClock
  | host
  | resetSource
  deriving DecidableEq, Repr

/-- One constructor per row of `opcode_table.json`: the four events, and the seven phase steps a TICK's cascade is
made of (30_encoding.md R49, R58). -/
inductive Instr where
  /-- TICK, one heartbeat of the envelope clock (R62). -/
  | tick
  /-- DEPOSIT, the atomic hand-over of the frame `f` (R81). -/
  | deposit (f : Frame)
  /-- STATUS, the read of the handshake flags (R82). -/
  | status
  /-- INIT, the initialization and reset event (R83). -/
  | init
  /-- The phase step of header-mark (R67). -/
  | phaseHm
  /-- The phase step of header-space (R68). -/
  | phaseHs
  /-- The phase step of data-mark (R69). -/
  | phaseDm
  /-- The phase step of data-high-space (R70). -/
  | phaseDhs
  /-- The phase step of data-low-space (R71). -/
  | phaseDls
  /-- The phase step of footer-mark (R72). -/
  | phaseFm
  /-- The phase step of footer-space (R73). -/
  | phaseFs
  deriving DecidableEq, Repr

end Sys2Proof
end

