-- ==== Sys2Proof/Machine/State.lean ====
section
/-! DEFINITION. The state of the block: the seven registers and the fault record of 10_state.md R14, the parameter
FINAL_DM_EMITS, and the model's own fields; the fault and refusal reasons; the state after reset. -/

namespace Sys2Proof.Machine

/-- The two model faults of 60_exceptions.md R92. They are entries of the fault record `State.faults`: a raise is a NEXT
state, since it "leaves every agent able to go on stepping". No step answers `Host.Outcome.fault`. -/
inductive Fault where
  /-- ReservedEvent, code 1, with the event word. Raised by the decoder (R50, R51, R93), in `applyWord`. Safe: a
  refusal of a spelling no source shows, which changes no register. -/
  | reservedEvent (ev : EventWord)
  /-- CorruptState, code 2, with `{state, ticks, index}`. Raised by a TICK in a state that fails WF (R65, R94), in
  `execTick`, and by `resumeCascade` on the reserved phase code. Safe: no run from reset reaches it. -/
  | corruptState (info : BitVec 14)
  deriving DecidableEq, Repr

/-- Why there is no meaning for an instruction. -/
inductive Refusal where
  /-- An arm of `exec` with no meaning yet would answer it; every arm has one, so nobody raises it. Safe. -/
  | notModelled (mnemonic : String)
  deriving DecidableEq, Repr

/-- The state. A 1-bit register is a Bool, true for 1 (log entry 7). -/
structure State where
  /-- `state`: the code of the current phase (R15). -/
  state : PhaseCode
  /-- `ticks`: emissions made so far in the current phase (R16). -/
  ticks : TickCount
  /-- `index`: the frame bit being encoded (R17). -/
  index : BitIndex
  /-- `frame`: the pending frame, and the frame held during emission (R18). -/
  frame : Frame
  /-- `ready`: a frame is deposited and not yet picked up (R19). -/
  ready : Bool
  /-- `completed`: no transmission is in flight (R20). -/
  completed : Bool
  /-- `gate`: true for a mark, false for a space (R21). -/
  gate : Bool
  /-- `faults`: the model's fault record, oldest entry first (R28). -/
  faults : List Fault
  /-- FINAL_DM_EMITS: the parameter of R7; no event writes it (log entry 4). -/
  finalDmEmits : Bool
  /-- The model's own: the response of the last event; none after a faulting event (R53, log entry 3). -/
  rsp : Option Word
  /-- The model's own: the last phase step answered CONTINUE, so the cascade of a TICK goes on (R66, log entry 5). -/
  cont : Bool
  /-- The model's own: events of the total order placed and not yet applied, oldest first (R43, log entry 1). -/
  events : List EventWord
  /-- The model's own: how many free values have been drawn (log entries 1 and 6). -/
  draws : Nat
  deriving DecidableEq, Repr

/-- The block right after power-on reset: the values of R29 (R108), an empty fault record (R28), the parameter at its
default (R7), and the model's own fields empty (log entry 8). -/
def State.reset : State where
  state := 0b000#3
  ticks := 0#5
  index := 0#6
  frame := 0x00000000#32
  ready := false
  completed := true
  gate := false
  faults := []
  finalDmEmits := Config.finalDmEmitsDefault
  rsp := none
  cont := false
  events := []
  draws := 0

end Sys2Proof.Machine
end

