-- ==== Sys2Proof/Machine/Operands.lean ====
section
/-! DEFINITION. Operand forms: the frame bit the encoder reads, and the frame layout and assembly
(30_encoding.md R55-R57, 41_gateway.md R85). -/

namespace Sys2Proof.Machine

/-- `bit(frame, index) = (frame >> index) & 1`, the only operand the encoder takes from the frame (R9, R57). -/
def frameBit (f : Frame) (i : BitIndex) : Bool := (f >>> i.toNat).getLsbD 0

/-- `frame[15:0]`, the address (R55). -/
def frameAddress (f : Frame) : BitVec 16 := f.extractLsb' 0 16

/-- `frame[23:16]`, the command (R55). -/
def frameCommand (f : Frame) : BitVec 8 := f.extractLsb' 16 8

/-- `frame[31:24]`, the complement of the command in a frame built by SEND (R55). -/
def frameComplement (f : Frame) : BitVec 8 := f.extractLsb' 24 8

/-- Frame assembly, `address | (command << 16) | ((~command) << 24)` (R56). -/
def assemble (address : BitVec 16) (command : BitVec 8) : Frame :=
  address.setWidth 32 ||| (command.setWidth 32 <<< 16) ||| ((~~~command).setWidth 32 <<< 24)

/-- The frame of `SEND address, command` for host values of any width: each is cut to its port's low bits before
assembly (R85). -/
def sendFrame (address command : Nat) : Frame :=
  assemble (BitVec.ofNat 16 address) (BitVec.ofNat 8 command)

end Sys2Proof.Machine
end

