-- ==== Sys2Proof/WellFormed.lean ====
section
/-! DEFINITION. Well-formedness: which words spell an instruction, check by check (30_encoding.md R50, R51, R58), and
which instructions are well formed. -/

namespace Sys2Proof

/-- The event code is not one of the reserved codes 0b100 to 0b111 (R50). -/
def EventWord.opDefined (ev : EventWord) : Bool :=
  ev.extractLsb' 32 3 < 4#3

/-- `data` is 0 unless the event is DEPOSIT, op 0b001 (R51). -/
def EventWord.dataDefined (ev : EventWord) : Bool :=
  ev.extractLsb' 32 3 == 1#3 || ev.extractLsb' 0 32 == 0#32

/-- The phase code is not the reserved code 7 (R15, R58). -/
def PhaseCode.phaseDefined (code : PhaseCode) : Bool :=
  code != 7#3

/-- A word that spells an instruction. -/
def TableWord.wellFormed : TableWord → Bool
  | .event ev => ev.opDefined && ev.dataDefined
  | .phase code => code.phaseDefined

/-- Every term of Instr is well formed: the only operand is DEPOSIT's frame, every 32-bit value of it is legal
(41_gateway.md R86), and its width is its type's. -/
def Instr.wellFormed : Instr → Bool
  | .tick => true
  | .deposit _ => true
  | .status => true
  | .init => true
  | .phaseHm => true
  | .phaseHs => true
  | .phaseDm => true
  | .phaseDhs => true
  | .phaseDls => true
  | .phaseFm => true
  | .phaseFs => true

end Sys2Proof
end

