-- ==== Sys2Proof/Decode.lean ====
section
/-! DEFINITION. The decoder (30_encoding.md R61, R58), total on every word, and after it the encoder, both written from
the encoding tables R15, R48 and R49. -/

namespace Sys2Proof

/-- `op`, the event code `ev[34:32]` (R48). -/
def eventOp (ev : EventWord) : BitVec 3 := ev.extractLsb' 32 3

/-- `data`, the operand `ev[31:0]` (R48). -/
def eventData (ev : EventWord) : Word := ev.extractLsb' 0 32

/-- The event word `{op, data}`: `op` in bits 34:32, `data` in bits 31:0 (R48). -/
def eventWord (op : BitVec 3) (data : Word) : EventWord := (op.setWidth 35 <<< 32) ||| data.setWidth 35

/-- The decoder of event words (R61); `none` where it raises ReservedEvent: a reserved op (R50), or a nonzero data with
TICK, STATUS or INIT (R51). -/
def decodeEvent (ev : EventWord) : Option Instr :=
  if eventOp ev = 0b000#3 then (if eventData ev = 0#32 then some .tick else none)
  else if eventOp ev = 0b001#3 then some (.deposit (eventData ev))
  else if eventOp ev = 0b010#3 then (if eventData ev = 0#32 then some .status else none)
  else if eventOp ev = 0b011#3 then (if eventData ev = 0#32 then some .init else none)
  else none

/-- The code of a phase (10_state.md R15). -/
def phaseCode : Phase → PhaseCode
  | .hm => 0b000#3
  | .hs => 0b001#3
  | .dm => 0b010#3
  | .dhs => 0b011#3
  | .dls => 0b100#3
  | .fm => 0b101#3
  | .fs => 0b110#3

/-- The phase of a code; the reserved code 7 is no phase (R15). -/
def phaseOfCode (code : PhaseCode) : Option Phase :=
  if code = 0b000#3 then some .hm
  else if code = 0b001#3 then some .hs
  else if code = 0b010#3 then some .dm
  else if code = 0b011#3 then some .dhs
  else if code = 0b100#3 then some .dls
  else if code = 0b101#3 then some .fm
  else if code = 0b110#3 then some .fs
  else none

/-- The phase step of a phase: the STATE rows of the opcode table (R58). -/
def phaseInstr : Phase → Instr
  | .hm => .phaseHm
  | .hs => .phaseHs
  | .dm => .phaseDm
  | .dhs => .phaseDhs
  | .dls => .phaseDls
  | .fm => .phaseFm
  | .fs => .phaseFs

/-- The phase dispatch on `state[2:0]` (R58); `none` for the reserved code 7. -/
def decodePhase (code : PhaseCode) : Option Instr :=
  (phaseOfCode code).map phaseInstr

/-- The decoder of the opcode table's words. -/
def decode : TableWord → Option Instr
  | .event ev => decodeEvent ev
  | .phase code => decodePhase code

/-- The word of an instruction (R15, R48, R49). -/
def encode : Instr → TableWord
  | .tick => .event (eventWord 0b000#3 0#32)
  | .deposit f => .event (eventWord 0b001#3 f)
  | .status => .event (eventWord 0b010#3 0#32)
  | .init => .event (eventWord 0b011#3 0#32)
  | .phaseHm => .phase (phaseCode .hm)
  | .phaseHs => .phase (phaseCode .hs)
  | .phaseDm => .phase (phaseCode .dm)
  | .phaseDhs => .phase (phaseCode .dhs)
  | .phaseDls => .phase (phaseCode .dls)
  | .phaseFm => .phase (phaseCode .fm)
  | .phaseFs => .phase (phaseCode .fs)

/-- Who issues an instruction (R49): `none` for a phase step, which no agent issues; it is a part of a TICK. -/
def agentOf : Instr → Option Agent
  | .tick => some .envelopeClock
  | .deposit _ => some .host
  | .status => some .host
  | .init => some .resetSource
  | .phaseHm => none
  | .phaseHs => none
  | .phaseDm => none
  | .phaseDhs => none
  | .phaseDls => none
  | .phaseFm => none
  | .phaseFs => none

/-- The table word of `nbits` bits whose bits are `w`. The rows of format STATE are 3 bits wide, one byte; those of
format EVENT 35 bits, five bytes; so one byte or less is a phase code and more is an event word. Bits of `w` above the
format's width (7:3, or 39:35) belong to no field and are dropped (DESIGN CHOICE, log entry 11). -/
def tableWord (nbits w : Nat) : TableWord :=
  if nbits ≤ 8 then .phase (BitVec.ofNat 3 w) else .event (BitVec.ofNat 35 w)

/-- The instruction the decoder reads from a row of the opcode table with the bits `w`. -/
def decodeTableWord (nbits w : Nat) : Option Instr := decode (tableWord nbits w)

end Sys2Proof
end

