-- ==== Sys2Proof/Machine/Ops.lean ====
section
/-! DEFINITION. The named operations over the registers: the Phase Timing Table, the well-formedness check, responses,
raising a model fault, emit and enter, pickup, and the arrival of events. The block has no memory (20_memory.md R35). -/

namespace Sys2Proof.Machine

/-- `DUR`: the emissions a phase holds before it advances (10_state.md R23). -/
def dur : Phase → TickCount
  | .hm => 16#5
  | .hs => 8#5
  | .dm => 1#5
  | .dhs => 3#5
  | .dls => 1#5
  | .fm => 1#5
  | .fs => 1#5

/-- `LVL`: the gate value each emission of a phase writes, true for a mark (R23). -/
def lvl : Phase → Bool
  | .hm => true
  | .hs => false
  | .dm => true
  | .dhs => false
  | .dls => false
  | .fm => true
  | .fs => false

/-- The well-formedness predicate WF: `state <= 6`, `ticks <= DUR(state)` and `index <= 32` (R34). -/
def wf (s : State) : Bool :=
  match phaseOfCode s.state with
  | some p => decide (s.ticks ≤ dur p) && decide (s.index ≤ 32#6)
  | none => false

/-- The info of CorruptState: `{state, ticks, index}`, 14 bits: state in bits 13:11, ticks in bits 10:6, index in bits
5:0 (R9, R92). -/
def corruptInfo (s : State) : BitVec 14 :=
  (s.state.setWidth 14 <<< 11) ||| (s.ticks.setWidth 14 <<< 6) ||| s.index.setWidth 14

/-- The code of a model fault (R92). -/
def faultCode : Fault → Nat
  | .reservedEvent _ => 1
  | .corruptState _ => 2

/-- The end of an event that does not fault: its response is `v` (30_encoding.md R53), and no cascade is open. -/
def respond (v : Word) (s : State) : State := { s with rsp := some v, cont := false }

/-- TAKING A FAULT, `raise F(info)` (60_exceptions.md R92): the entry is appended to the fault record, the event ends
with no architectural write and no response, and every agent can go on. There is no trap entry, no saved state and no
return (R101), so no operation returns from it. -/
def raise (e : Fault) (s : State) : State :=
  { s with faults := s.faults ++ [e], rsp := none, cont := false }

/-- `ticks + 1`; a free value where 5 bits do not hold the sum (R10, R16; log entry 6). -/
def nextTicks (s : State) : TickCount :=
  if s.ticks = 31#5 then Config.freeTicks s.draws else s.ticks + 1#5

/-- `index + 1`; a free value where 6 bits do not hold the sum (R10, R17; log entry 6). -/
def nextIndex (s : State) : BitIndex :=
  if s.index = 63#6 then Config.freeIndex s.draws else s.index + 1#6

/-- `emit(S)`, an emission: one tick of phase S; the answer is DONE (40_encoder.md R66). -/
def emit (p : Phase) (s : State) : State :=
  { s with
    gate := lvl p
    ticks := nextTicks s
    draws := if s.ticks = 31#5 then s.draws + 1 else s.draws
    cont := false }

/-- `enter(S')`, a transition: phase S' entered, nothing emitted yet; the answer is CONTINUE (R66). -/
def enter (p : Phase) (s : State) : State :=
  { s with state := phaseCode p, ticks := 0#5, cont := true }

/-- `index <- index + 1` (R69). -/
def countBit (s : State) : State :=
  { s with
    index := nextIndex s
    draws := if s.index = 63#6 then s.draws + 1 else s.draws }

/-- The step of a phase `p` that only counts its duration: its time used up, it enters `q`, else it emits (R67, R68,
R70, R71, R72). -/
def timedStep (p q : Phase) (s : State) : State :=
  if s.ticks = dur p then enter q s else emit p s

/-- The completion tick of footer-space; the answer is DONE, and `gate` is not written (R73). -/
def complete (s : State) : State :=
  { s with
    index := 0#6
    completed := true
    frame := 0#32
    state := phaseCode .hm
    ticks := 0#5
    cont := false }

/-- Pickup: `if ready = 1 then ready <- 0; completed <- 0` (R63). -/
def pickup (s : State) : State :=
  if s.ready then { s with ready := false, completed := false } else s

/-- The next event of the total order (20_memory.md R43): the oldest listed one, else what the agents do next, which is
free (log entry 1); `none` when no agent issues an event. -/
def arrival (s : State) : Option EventWord :=
  match s.events with
  | ev :: _ => some ev
  | [] => Config.nextEvent s.draws

/-- The state from which the next event is taken away. -/
def afterArrival (s : State) : State :=
  match s.events with
  | _ :: rest => { s with events := rest }
  | [] => { s with draws := s.draws + 1 }

/-- The event word `ev` placed as the next event. -/
def placeEvent (ev : EventWord) (s : State) : State :=
  { s with events := ev :: s.events, cont := false }

/-- The block inside the cascade of a TICK that has passed its pickup and its idle test (so `ready = 0` and
`completed = 0`, R62), standing at the phase of code `code`: the next step is that phase's. -/
def placePhase (code : PhaseCode) (s : State) : State :=
  { s with state := code, ready := false, completed := false, cont := true }

end Sys2Proof.Machine
end

