-- ==== Sys2Proof/Machine/Phases.lean ====
section
/-! DEFINITION. The seven phase steps, 40_encoder.md R67 to R73. A phase step answers DONE (`cont` false) or CONTINUE
(`cont` true); it raises nothing. -/

namespace Sys2Proof.Machine

/-- `phase_step(HM)` (R67). -/
def stepHm (s : State) : State := timedStep .hm .hs s

/-- `phase_step(HS)` (R68). -/
def stepHs (s : State) : State := timedStep .hs .dm s

/-- `phase_step(DM)` (R69): at the end of the data phase it enters FM, with `index` unchanged; its mark made, it reads
the frame bit at `index`, counts it and enters DHS or DLS; else it emits its mark. -/
def stepDm (s : State) : State :=
  if s.index = 32#6 ∧ (s.finalDmEmits = false ∨ s.ticks = 1#5) then enter .fm s
  else if s.ticks = 1#5 then
    if frameBit s.frame s.index then enter .dhs (countBit s) else enter .dls (countBit s)
  else emit .dm s

/-- `phase_step(DHS)` (R70). -/
def stepDhs (s : State) : State := timedStep .dhs .dm s

/-- `phase_step(DLS)` (R71). -/
def stepDls (s : State) : State := timedStep .dls .dm s

/-- `phase_step(FM)` (R72). -/
def stepFm (s : State) : State := timedStep .fm .fs s

/-- `phase_step(FS)` (R73): its space made, the completion tick; else it emits its space. -/
def stepFs (s : State) : State :=
  if s.ticks = 1#5 then complete s else emit .fs s

/-- PHASE_HM (R67). -/
def execPhaseHm (s : State) : Host.Outcome State Fault Refusal := .next (stepHm s)

/-- PHASE_HS (R68). -/
def execPhaseHs (s : State) : Host.Outcome State Fault Refusal := .next (stepHs s)

/-- PHASE_DM (R69). -/
def execPhaseDm (s : State) : Host.Outcome State Fault Refusal := .next (stepDm s)

/-- PHASE_DHS (R70). -/
def execPhaseDhs (s : State) : Host.Outcome State Fault Refusal := .next (stepDhs s)

/-- PHASE_DLS (R71). -/
def execPhaseDls (s : State) : Host.Outcome State Fault Refusal := .next (stepDls s)

/-- PHASE_FM (R72). -/
def execPhaseFm (s : State) : Host.Outcome State Fault Refusal := .next (stepFm s)

/-- PHASE_FS (R73). -/
def execPhaseFs (s : State) : Host.Outcome State Fault Refusal := .next (stepFs s)

end Sys2Proof.Machine
end

