-- ==== Sys2Proof/Machine/Encoder.lean ====
section
/-! DEFINITION. The TICK event and its cascade, 40_encoder.md R62 to R66. -/

namespace Sys2Proof.Machine

/-- `phase_step(state)`, selected by the phase (30_encoding.md R58). -/
def phaseStep : Phase → State → State
  | .hm => stepHm
  | .hs => stepHs
  | .dm => stepDm
  | .dhs => stepDhs
  | .dls => stepDls
  | .fm => stepFm
  | .fs => stepFs

/-- `cascade()`: phase steps repeated until one answers DONE (R66), at most `n` of them. -/
def cascade : Nat → State → State
  | 0, s => s
  | n + 1, s =>
    match phaseOfCode s.state with
    | none => s
    | some p => if (phaseStep p s).cont then cascade n (phaseStep p s) else phaseStep p s

/-- The phase steps a cascade may take: two transitions and the emission (R80); `cascade_done` in Laws/Encoder.lean
proves that a well-formed state needs no more. -/
def cascadeBound : Nat := 3

/-- TICK (R62): the WF check (R65), the pickup (R63), the idle test (R64), the cascade (R66), the response 0. -/
def execTick (s : State) : Host.Outcome State Fault Refusal :=
  if wf s = false then .next (raise (.corruptState (corruptInfo s)) s)
  else if (pickup s).completed then .next (respond 0#32 (pickup s))
  else .next (respond 0#32 (cascade cascadeBound (pickup s)))

end Sys2Proof.Machine
end

