-- ==== Sys2Proof/Machine/Flags.lean ====
section
/-! DEFINITION. The flags: the derived signals and outputs of 10_state.md R22 and R26, and the status word. -/

namespace Sys2Proof.Machine

/-- `idle = completed & ~ready`: the block accepts a DEPOSIT (R22); also an output level (R26, R99). -/
def idle (s : State) : Bool := s.completed && !s.ready

/-- The pin drive `ir_out = gate & carrier_in`, at every moment and for every value of the carrier input (R26, R75). -/
def irOut (s : State) (carrierIn : Bool) : Bool := s.gate && carrierIn

/-- The status word: IDLE, READY, COMPLETED in bits 2, 1, 0; bits 31:3 read as zero (R54, R82). -/
def statusWord (s : State) : Word :=
  ((BitVec.ofBool (idle s)).setWidth 32 <<< 2) ||| ((BitVec.ofBool s.ready).setWidth 32 <<< 1)
    ||| (BitVec.ofBool s.completed).setWidth 32

end Sys2Proof.Machine
end

