-- ==== Sys2Proof/Machine/Gateway.lean ====
section
/-! DEFINITION. The host events DEPOSIT and STATUS and the reset event INIT, 41_gateway.md R81 to R83. -/

namespace Sys2Proof.Machine

/-- DEPOSIT f (R81): accepted exactly when the block is idle; else rejected with no write. -/
def execDeposit (f : Frame) (s : State) : Host.Outcome State Fault Refusal :=
  if idle s then .next (respond 1#32 { s with frame := f, ready := true })
  else .next (respond 0#32 s)

/-- STATUS (R82): the status word; no side effect. -/
def execStatus (s : State) : Host.Outcome State Fault Refusal := .next (respond (statusWord s) s)

/-- INIT (R83): every register at its reset value (10_state.md R29); the fault record is not cleared (R28). -/
def execInit (s : State) : Host.Outcome State Fault Refusal :=
  .next (respond 0#32
    { s with
      state := phaseCode .hm
      ticks := 0#5
      index := 0#6
      frame := 0x00000000#32
      ready := false
      completed := true
      gate := false })

end Sys2Proof.Machine
end

