-- ==== Sys2Proof/Machine/Dispatch.lean ====
section
/-! DEFINITION. exec: one arm per constructor of Instr. -/

namespace Sys2Proof.Machine

def exec (i : Instr) (s : State) : Host.Outcome State Fault Refusal :=
  match i with
  | .tick => Sys2Proof.Machine.execTick s
  | .deposit f => Sys2Proof.Machine.execDeposit f s
  | .status => Sys2Proof.Machine.execStatus s
  | .init => Sys2Proof.Machine.execInit s
  | .phaseHm => Sys2Proof.Machine.execPhaseHm s
  | .phaseHs => Sys2Proof.Machine.execPhaseHs s
  | .phaseDm => Sys2Proof.Machine.execPhaseDm s
  | .phaseDhs => Sys2Proof.Machine.execPhaseDhs s
  | .phaseDls => Sys2Proof.Machine.execPhaseDls s
  | .phaseFm => Sys2Proof.Machine.execPhaseFm s
  | .phaseFs => Sys2Proof.Machine.execPhaseFs s

end Sys2Proof.Machine
end

