-- ==== Sys2Proof/Machine/Sequencer.lean ====
section
/-! DEFINITION. What one step is made of: applying an event word (30_encoding.md R61, 60_exceptions.md R100 d), and going
on with a cascade that is open. -/

namespace Sys2Proof.Machine

/-- An event word applied: the event it names runs; a reserved word raises ReservedEvent before any execution (R93). -/
def applyWord (ev : EventWord) (s : State) : Host.Outcome State Fault Refusal :=
  match decode (.event ev) with
  | some i => exec i s
  | none => .next (raise (.reservedEvent ev) s)

/-- One event of the total order (20_memory.md R43). When no agent issues an event, the registers and the response stay
(log entry 1). -/
def stepEvent (s : State) : Host.Outcome State Fault Refusal :=
  match arrival s with
  | some ev => applyWord ev (afterArrival s)
  | none => .next (afterArrival s)

/-- The TICK whose cascade has ended answers 0 (R62, R53). -/
def finishTick : Host.Outcome State Fault Refusal → Host.Outcome State Fault Refusal
  | .next t => .next (if t.cont then t else respond 0#32 t)
  | .fault r => .fault r
  | .refused r => .refused r

/-- One phase step of a cascade that is open: no event is applied before the cascade ends (R39, R102). The reserved
phase code raises CorruptState (R58, R94; log entry 5). Between events of a run from reset no cascade is open. -/
def resumeCascade (s : State) : Host.Outcome State Fault Refusal :=
  match decode (.phase s.state) with
  | some i => finishTick (exec i s)
  | none => .next (raise (.corruptState (corruptInfo s)) s)

end Sys2Proof.Machine
end

