-- ==== Sys2Proof/Machine/Step.lean ====
section
/-! DEFINITION. One step of the machine: one whole event, atomically (20_memory.md R39); and the placing of an
instruction as the next one. -/

namespace Sys2Proof.Machine

/-- One step: the next event, applied whole; or, where a cascade is open, its next phase step. -/
def step (s : State) : Host.Outcome State Fault Refusal :=
  if s.cont then resumeCascade s else stepEvent s

/-- The instruction with the bits `w` placed so that the next step runs it: an event word is the next event to arrive; a
phase code is the phase at which the cascade of a TICK stands (log entry 11). -/
def State.withFetchWord (s : State) (nbits w : Nat) : State :=
  match tableWord nbits w with
  | .event ev => placeEvent ev s
  | .phase code => placePhase code s

end Sys2Proof.Machine
end

