-- ==== Sys2Proof/Machine/HostTasks.lean ====
section
/-! DEFINITION. The host side: the pseudo-instructions SEND and WAITIDLE (30_encoding.md R60, 41_gateway.md R84), host
loops over events, run against any interleaving of the other agents' events (20_memory.md R43). Their control flow is
the host's own and is no state of the block (log entry 12). -/

namespace Sys2Proof.Machine

/-- The state after an event is applied (an event always answers a next state: `exec_next` in Laws/Exec.lean). -/
def after (i : Instr) (s : State) : State :=
  match exec i s with
  | .next t => t
  | .fault _ => s
  | .refused _ => s

/-- The state after the events of a list, applied in order (R43). -/
def afterAll : List Instr → State → State
  | [], s => s
  | i :: rest, s => afterAll rest (after i s)

/-- A host pseudo-instruction: SEND of an assembled frame, or WAITIDLE (R60). -/
inductive HostTask where
  | send (f : Frame)
  | waitIdle
  deriving DecidableEq, Repr

/-- `SEND address, command` (R84): the host assembles the frame, each value cut to its port (R85). -/
def sendTask (address command : Nat) : HostTask := .send (sendFrame address command)

/-- The event a task issues at each turn of its loop (R60). -/
def taskEvent : HostTask → Instr
  | .send f => .deposit f
  | .waitIdle => .status

/-- The response bit that ends the loop: `rsp[0]`, accepted, for SEND; `rsp[2]`, IDLE, for WAITIDLE (R60). -/
def taskBit : HostTask → Nat
  | .send _ => 0
  | .waitIdle => 2

/-- The response ends the task's loop. -/
def taskReturns (k : HostTask) (s : State) : Bool :=
  match s.rsp with
  | some v => v.getLsbD (taskBit k)
  | none => false

/-- A task run against a schedule: before its n-th attempt the events of the schedule's n-th list are applied, which
are other agents' (R43 d). The answer says whether the task has returned, and the state then; a schedule that ends
first leaves it spinning. -/
def runTask (k : HostTask) : List (List Instr) → State → Bool × State
  | [], s => (false, s)
  | others :: rest, s =>
    if taskReturns k (after (taskEvent k) (afterAll others s)) then (true, after (taskEvent k) (afterAll others s))
    else runTask k rest (after (taskEvent k) (afterAll others s))

end Sys2Proof.Machine
end

