-- ==== Sys2Proof/Safety.lean ====
section
/-! DEFINITION. The terms claims use: the invariants of 10_state.md R30 to R34, runs from reset, what is compared between two
states, and the pulse train a frame must produce (40_encoder.md R76, R77). -/

namespace Sys2Proof.Safety

open Sys2Proof.Machine

/-- INV1 (R30): `ready = 1` implies `completed = 1`. -/
def inv1 (s : State) : Bool := !s.ready || s.completed

/-- INV2 (R31): an idle block's configuration is its reset configuration, except for `frame` and `ready`. -/
def inv2 (s : State) : Bool :=
  !s.completed || (s.state == phaseCode .hm && s.ticks == 0#5 && s.index == 0#6 && !s.gate)

/-- INV3 (R32): in flight, the phase has made between 1 and DUR emissions, and `gate` is its level. -/
def inv3 (s : State) : Bool :=
  s.completed ||
    match phaseOfCode s.state with
    | some p => decide (1#5 ≤ s.ticks) && decide (s.ticks ≤ dur p) && (s.gate == lvl p)
    | none => false

/-- What INV4 (R33) says of `index` in each phase. -/
def indexFits (p : Phase) (s : State) : Bool :=
  match p with
  | .hm => s.index == 0#6
  | .hs => s.index == 0#6
  | .dm => decide (s.index ≤ 31#6) || (s.finalDmEmits && s.index == 32#6)
  | .dhs => decide (1#6 ≤ s.index) && decide (s.index ≤ 32#6) && frameBit s.frame (s.index - 1#6)
  | .dls => decide (1#6 ≤ s.index) && decide (s.index ≤ 32#6) && !frameBit s.frame (s.index - 1#6)
  | .fm => s.index == 32#6
  | .fs => s.index == 32#6

/-- INV4 (R33): in flight, `index` fits the phase, and the data space being sent is that of the last bit read. -/
def inv4 (s : State) : Bool :=
  s.completed ||
    match phaseOfCode s.state with
    | some p => indexFits p s
    | none => false

/-- The invariants of R30 to R33 together, between events: no cascade is open (R39). -/
def inv (s : State) : Bool := inv1 s && inv2 s && inv3 s && inv4 s && !s.cont

/-- A block right after power-on reset, with either value of the parameter FINAL_DM_EMITS, any events listed to come,
and any point of the environment's free choices. -/
def start (finalDmEmits : Bool) (events : List EventWord) (draws : Nat) : State :=
  { State.reset with finalDmEmits := finalDmEmits, events := events, draws := draws }

/-- A state that some run from reset comes to. -/
inductive Reachable : State → Prop where
  | reset (finalDmEmits : Bool) (events : List EventWord) (draws : Nat) : Reachable (start finalDmEmits events draws)
  | step (s t : State) : Reachable s → Machine.step s = .next t → Reachable t

/-- The seven registers of 10_state.md R14. -/
structure Registers where
  state : PhaseCode
  ticks : TickCount
  index : BitIndex
  frame : Frame
  ready : Bool
  completed : Bool
  gate : Bool
  deriving DecidableEq, Repr

/-- The registers of a state. -/
def registers (s : State) : Registers :=
  ⟨s.state, s.ticks, s.index, s.frame, s.ready, s.completed, s.gate⟩

/-- A fault record, whatever it holds, put in place of a state's. -/
def withFaults (l : List Fault) (s : State) : State := { s with faults := l }

/-- The event word is refused: where it is the next event, a step appends ReservedEvent with that word to the fault
record, gives no response, and changes nothing else but that the event is taken away (R92, R93). -/
def raisesReserved (ev : EventWord) : Prop :=
  ∀ (s : State) (rest : List EventWord), s.cont = false → s.events = ev :: rest →
    step s = .next { s with events := rest, faults := s.faults ++ [.reservedEvent ev], rsp := none }

/-- `n` TICKs in a row. -/
def ticksFrom : Nat → State → State
  | 0, s => s
  | n + 1, s => ticksFrom n (after .tick s)

/-- The number of 1 bits of a frame, the `n` of R77. -/
def popcount (f : Frame) : Nat := (List.range 32).countP (fun k => f.getLsbD k)

/-- `s_k`: the space periods of bit `k` (R76). -/
def spacePeriods (f : Frame) (k : Nat) : Nat := if f.getLsbD k then 3 else 1

/-- The number of emissions of one frame: `90 + 2n`, one more with FINAL_DM_EMITS (R77). -/
def emissions (finalDmEmits : Bool) (f : Frame) : Nat :=
  90 + 2 * popcount f + (if finalDmEmits then 1 else 0)

/-- The phase code and the gate level of each tick period of a frame (R76): 16 periods HM, 8 HS; for each bit from 0
to 31 one period DM and `s_k` of DHS (bit 1) or DLS (bit 0); with FINAL_DM_EMITS one more DM; one FM and one FS. -/
def frameTrace (finalDmEmits : Bool) (f : Frame) : List (PhaseCode × Bool) :=
  List.replicate 16 (phaseCode .hm, true) ++ List.replicate 8 (phaseCode .hs, false)
    ++ (List.range 32).flatMap (fun k => (phaseCode .dm, true)
        :: List.replicate (spacePeriods f k) (if f.getLsbD k then phaseCode .dhs else phaseCode .dls, false))
    ++ (if finalDmEmits then [(phaseCode .dm, true)] else [])
    ++ [(phaseCode .fm, true), (phaseCode .fs, false)]

/-- The phase code and the gate level of each of the next `n` tick periods from a state: a tick period's level is the
gate after its TICK (R74). -/
def periods : Nat → State → List (PhaseCode × Bool)
  | 0, _ => []
  | n + 1, s => ((after .tick s).state, (after .tick s).gate) :: periods n (after .tick s)

/-- The number of transitions (`enter`) of a cascade of at most `n` phase steps (R80). -/
def transitions : Nat → State → Nat
  | 0, _ => 0
  | n + 1, s =>
    match phaseOfCode s.state with
    | none => 0
    | some p => if (phaseStep p s).cont then 1 + transitions n (phaseStep p s) else 0

end Sys2Proof.Safety
end

