-- ==== Sys2Proof/Certificates/Slice0/Obligations.lean ====
section
/-! DEFINITION. The statements for the provers, from the numbered rules of spec/. `after i s` is the state that `exec i s`
answers (EveryInstructionAnswersNext says that it answers one). -/

open Sys2Proof Sys2Proof.Machine Sys2Proof.Safety

/-! Encoding -/

/-- 95_test_vectors.md 2.2: the words D-1 to D-10, and the phase codes of R15. -/
def Obligations.SpecWordsDecode : Prop :=
  decode (.event 0x000000000) = some .tick
  ∧ decode (.event 0x100000000) = some (.deposit 0x00000000)
  ∧ decode (.event 0x1FFFFFFFF) = some (.deposit 0xFFFFFFFF)
  ∧ decode (.event 0x200000000) = some .status
  ∧ decode (.event 0x300000000) = some .init
  ∧ decode (.event 0x000000001) = none
  ∧ decode (.event 0x2000000FF) = none
  ∧ decode (.event 0x380000000) = none
  ∧ decode (.event 0x400000000) = none
  ∧ decode (.event 0x7FFFFFFFF) = none
  ∧ decode (.phase 0b000) = some .phaseHm
  ∧ decode (.phase 0b011) = some .phaseDhs
  ∧ decode (.phase 0b100) = some .phaseDls

/-- R61, by arithmetic on the word: its value is `op * 2^32 + data` (R48, R49). -/
def Obligations.DecoderNamesOneEventOrNone : Prop :=
  ∀ ev : EventWord,
    (decode (.event ev) = some .tick ↔ ev.toNat = 0)
    ∧ (∀ f : Frame, decode (.event ev) = some (.deposit f) ↔ ev.toNat = 2 ^ 32 + f.toNat)
    ∧ (decode (.event ev) = some .status ↔ ev.toNat = 2 * 2 ^ 32)
    ∧ (decode (.event ev) = some .init ↔ ev.toNat = 3 * 2 ^ 32)
    ∧ (decode (.event ev) = none
        ↔ 4 ≤ ev.toNat / 2 ^ 32 ∨ (ev.toNat / 2 ^ 32 ≠ 1 ∧ ev.toNat % 2 ^ 32 ≠ 0))

/-- Decoding is exactly the inverse of encoding, for every instruction and every word: no bit of an encoding is dropped,
no two words name one instruction, and no instruction has a second word. -/
def Obligations.DecodeInvertsEncode : Prop :=
  ∀ (i : Instr) (w : TableWord), i.wellFormed = true → (decode w = some i ↔ encode i = w)

/-- The decoder refuses exactly the words that the checks of WellFormed.lean refuse (R50, R51, R58). -/
def Obligations.DecodeAcceptsExactlyWellFormedWords : Prop :=
  ∀ w : TableWord, (∃ i, decode w = some i) ↔ w.wellFormed = true

/-! One step -/

/-- The oldest listed event runs, whole, in the state without it (R12, R43). -/
def Obligations.StepRunsTheDecodedEvent : Prop :=
  ∀ (s : State) (ev : EventWord) (rest : List EventWord) (i : Instr),
    s.cont = false → s.events = ev :: rest → decode (.event ev) = some i →
      step s = exec i { s with events := rest }

/-- With no event listed, the environment's free choice is the next event; when it gives none, only the counter of free
values moves (the model's own, log entry 1). -/
def Obligations.StepAppliesTheFreeEvent : Prop :=
  ∀ s : State, s.cont = false → s.events = [] →
    step s =
      match Config.nextEvent s.draws with
      | none => .next { s with draws := s.draws + 1 }
      | some ev =>
        match decode (.event ev) with
        | some i => exec i { s with draws := s.draws + 1 }
        | none => .next { s with draws := s.draws + 1, faults := s.faults ++ [.reservedEvent ev], rsp := none }

/-- Inside the cascade of a TICK (the model's own field `cont`, log entry 5) a step is the step of the phase, and when
the phase answers DONE the TICK's response is 0. -/
def Obligations.StepRunsThePhaseOfAnOpenCascade : Prop :=
  ∀ (s t : State) (p : Phase), s.cont = true → s.state = phaseCode p → exec (phaseInstr p) s = .next t →
    step s = .next (if t.cont then t else { t with rsp := some 0 })

/-- An instruction placed by withFetchWord is the one the next step runs (the model's own, log entry 11). -/
def Obligations.StepRunsThePlacedInstruction : Prop :=
  ∀ (s : State) (nbits w : Nat) (i : Instr), decodeTableWord nbits w = some i →
    (8 < nbits → step (s.withFetchWord nbits w) = exec i { s with cont := false })
    ∧ (nbits ≤ 8 → ∃ t,
        exec i { s with state := BitVec.ofNat 3 w, ready := false, completed := false, cont := true } = .next t
        ∧ step (s.withFetchWord nbits w) = .next (if t.cont then t else { t with rsp := some 0 }))

/-- R93: a reserved op, or a nonzero data with TICK, STATUS or INIT, raises ReservedEvent (code 1), and no register
changes. -/
def Obligations.ReservedWordRaisesReservedEvent : Prop :=
  (∀ ev : EventWord,
    4 ≤ ev.toNat / 2 ^ 32 ∨ (ev.toNat / 2 ^ 32 ≠ 1 ∧ ev.toNat % 2 ^ 32 ≠ 0) → raisesReserved ev)
  ∧ ∀ ev : EventWord, faultCode (.reservedEvent ev) = 1

/-- In every state, well formed or not, every instruction answers a next state (R12, R92). -/
def Obligations.EveryInstructionAnswersNext : Prop :=
  ∀ (i : Instr) (s : State), ∃ t, exec i s = .next t

/-- The machine never stops: in every state a step answers a next state (R12, R92, R102). -/
def Obligations.EveryStepAnswersNext : Prop :=
  ∀ s : State, ∃ t, step s = .next t

/-- R39, R66: the atomic TICK is what its phase steps do one by one: from every well-formed state that is not idle, one to
three phase steps from the picked-up state come to the very state that TICK answers. -/
def Obligations.PhaseStepsRefineTick : Prop :=
  ∀ s : State, wf s = true → s.ready = true ∨ s.completed = false →
    ∃ k, 1 ≤ k ∧ k ≤ 3 ∧ Host.Core.run core k { pickup s with cont := true } = exec .tick s

/-! Reset and the host events -/

/-- R29, R108: the values after power-on reset, and the same after INIT; the fault record is empty at power-on and kept
by INIT; after reset the block is idle. -/
def Obligations.ResetValues : Prop :=
  registers State.reset = ⟨0b000, 0, 0, 0x00000000, false, true, false⟩
  ∧ State.reset.faults = []
  ∧ idle State.reset = true
  ∧ ∀ s : State, ∃ t, exec .init s = .next t ∧ registers t = registers State.reset ∧ t.faults = s.faults

/-- R83: INIT's word, its result, and everything it leaves as it was. -/
def Obligations.InitResult : Prop :=
  (∀ s : State,
    exec .init s = .next
      { s with
        state := 0b000, ticks := 0, index := 0, frame := 0x00000000, ready := false, completed := true, gate := false,
        rsp := some 0, cont := false })
  ∧ ∀ ev : EventWord, ev.toNat / 2 ^ 32 = 3 →
      (ev.toNat % 2 ^ 32 = 0 → decode (.event ev) = some .init) ∧ (ev.toNat % 2 ^ 32 ≠ 0 → raisesReserved ev)

/-- R81: DEPOSIT's word, its result, accepted or rejected, and everything it leaves as it was. -/
def Obligations.DepositResult : Prop :=
  (∀ (f : Frame) (ev : EventWord), ev.toNat = 2 ^ 32 + f.toNat → decode (.event ev) = some (.deposit f))
  ∧ ∀ (f : Frame) (s : State),
    (s.completed = true ∧ s.ready = false →
      exec (.deposit f) s = .next { s with frame := f, ready := true, rsp := some 1, cont := false })
    ∧ (¬(s.completed = true ∧ s.ready = false) →
      exec (.deposit f) s = .next { s with rsp := some 0, cont := false })

/-- R82, R54: STATUS's word; it answers the status word and writes nothing; the status word's bits; its values under
the invariants. -/
def Obligations.StatusResult : Prop :=
  (∀ ev : EventWord, ev.toNat / 2 ^ 32 = 2 →
    (ev.toNat % 2 ^ 32 = 0 → decode (.event ev) = some .status) ∧ (ev.toNat % 2 ^ 32 ≠ 0 → raisesReserved ev))
  ∧ ∀ s : State, ∃ v : Word,
    exec .status s = .next { s with rsp := some v, cont := false }
    ∧ v.getLsbD 0 = s.completed
    ∧ v.getLsbD 1 = s.ready
    ∧ v.getLsbD 2 = (s.completed && !s.ready)
    ∧ (∀ k, 3 ≤ k → v.getLsbD k = false)
    ∧ (inv s = true → v = 0b101 ∨ v = 0b011 ∨ v = 0b000)

/-- R40: side effects and idempotency of each event. -/
def Obligations.SideEffectsOfEvents : Prop :=
  (∀ s : State, registers (after .status s) = registers s ∧ (after .status s).faults = s.faults
    ∧ (after .status (after .status s)).rsp = (after .status s).rsp)
  ∧ (∀ (s : State) (f g : Frame),
      (idle s = true →
        registers (after (.deposit f) s) = { registers s with frame := f, ready := true }
        ∧ (after (.deposit f) s).rsp = some 1
        ∧ (after (.deposit g) (after (.deposit f) s)).rsp = some 0)
      ∧ registers (after (.deposit g) (after (.deposit f) s)) = registers (after (.deposit f) s))
  ∧ (∀ s : State, wf s = true → s.ready = true ∨ s.completed = false → registers (after .tick s) ≠ registers s)
  ∧ (∀ s : State, after .init (after .init s) = after .init s)

/-- R27: what a host event can write, and what its response can depend on. -/
def Obligations.HostAccessRights : Prop :=
  (∀ (i : Instr) (s : State), agentOf i = some .host →
    (after i s).state = s.state ∧ (after i s).ticks = s.ticks ∧ (after i s).index = s.index
    ∧ (after i s).gate = s.gate ∧ (after i s).completed = s.completed
    ∧ ((after i s).frame = s.frame ∧ (after i s).ready = s.ready
      ∨ ∃ f, i = .deposit f ∧ s.completed = true ∧ s.ready = false ∧ (after i s).frame = f ∧ (after i s).ready = true))
  ∧ ∀ (i : Instr) (s s' : State), agentOf i = some .host → s.completed = s'.completed → s.ready = s'.ready →
      (after i s).rsp = (after i s').rsp

/-! TICK -/

/-- R65: a TICK in a state that fails WF raises CorruptState with `{state, ticks, index}` (14 bits) and writes nothing. -/
def Obligations.TickRaisesCorruptState : Prop :=
  ∀ s : State,
    s.state = 7 ∨ (∃ p, s.state = phaseCode p ∧ dur p < s.ticks) ∨ 32 < s.index →
      ∃ info : BitVec 14, info.toNat = s.state.toNat * 2 ^ 11 + s.ticks.toNat * 2 ^ 6 + s.index.toNat
        ∧ faultCode (.corruptState info) = 2
        ∧ exec .tick s = .next { s with faults := s.faults ++ [.corruptState info], rsp := none, cont := false }

/-- R64: an idle TICK writes nothing, and the gate is low in every idle state that the invariants allow. -/
def Obligations.IdleTickWritesNothing : Prop :=
  (∀ s : State, wf s = true → s.ready = false → s.completed = true →
    exec .tick s = .next { s with rsp := some 0, cont := false })
  ∧ ∀ s : State, inv s = true → s.completed = true → s.gate = false

/-- R63: pickup clears `ready` and `completed`, and the TICK goes on; under the invariants it emits the first
header-mark. -/
def Obligations.PickupStartsTheHeaderMark : Prop :=
  (∀ s : State, wf s = true → s.ready = true →
    exec .tick s = exec .tick { s with ready := false, completed := false })
  ∧ ∀ s : State, inv s = true → s.ready = true →
      s.state = phaseCode .hm ∧ s.ticks = 0 ∧ s.index = 0
      ∧ exec .tick s = .next
          { s with ready := false, completed := false, ticks := 1, gate := true, rsp := some 0, cont := false }

/-- Derived from R67: the phase step of header-mark in every state, and a TICK in header-mark. At
`ticks = 31` the count does not fit 5 bits and is a free value: THE MODEL'S CHOICE (log entry 6), which no rule states. -/
def Obligations.HeaderMarkStep : Prop :=
  decode (.phase 0b000) = some .phaseHm
  ∧ (∀ s : State,
    exec .phaseHm s = .next
      (if s.ticks = 16 then { s with state := 0b001, ticks := 0, cont := true }
       else if s.ticks = 31 then
         { s with gate := true, ticks := Config.freeTicks s.draws, draws := s.draws + 1, cont := false }
       else { s with gate := true, ticks := s.ticks + 1, cont := false }))
  ∧ ∀ s : State, inv s = true → s.completed = false → s.state = 0b000 →
      exec .tick s = .next
        (if s.ticks = 16 then { s with state := 0b001, ticks := 1, gate := false, rsp := some 0 }
         else { s with ticks := s.ticks + 1, gate := true, rsp := some 0 })

/-- Derived from R68: the phase step of header-space in every state, and a TICK in header-space. At
`ticks = 31` the count does not fit 5 bits and is a free value: THE MODEL'S CHOICE (log entry 6), which no rule states. -/
def Obligations.HeaderSpaceStep : Prop :=
  decode (.phase 0b001) = some .phaseHs
  ∧ (∀ s : State,
    exec .phaseHs s = .next
      (if s.ticks = 8 then { s with state := 0b010, ticks := 0, cont := true }
       else if s.ticks = 31 then
         { s with gate := false, ticks := Config.freeTicks s.draws, draws := s.draws + 1, cont := false }
       else { s with gate := false, ticks := s.ticks + 1, cont := false }))
  ∧ ∀ s : State, inv s = true → s.completed = false → s.state = 0b001 →
      s.index = 0
      ∧ exec .tick s = .next
        (if s.ticks = 8 then { s with state := 0b010, ticks := 1, gate := true, rsp := some 0 }
         else { s with ticks := s.ticks + 1, gate := false, rsp := some 0 })

/-- Derived from R69: the phase step of data-mark in every state, for both values of FINAL_DM_EMITS. At `ticks = 31` and
at `index = 63` the count does not fit its width and is a free value: THE MODEL'S CHOICE (log entry 6), which no rule
states. -/
def Obligations.DataMarkStep : Prop :=
  ∀ s : State,
    (s.index = 32 → s.finalDmEmits = false ∨ s.ticks = 1 →
      exec .phaseDm s = .next { s with state := 0b101, ticks := 0, cont := true })
    ∧ (s.index ≠ 32 → s.ticks = 1 →
        exec .phaseDm s = .next
          { s with
            state := if ((s.frame >>> s.index.toNat) &&& 1) = 1 then 0b011 else 0b100
            ticks := 0
            index := if s.index = 63 then Config.freeIndex s.draws else s.index + 1
            draws := if s.index = 63 then s.draws + 1 else s.draws
            cont := true })
    ∧ (s.index ≠ 32 ∨ s.finalDmEmits = true → s.ticks ≠ 1 →
        exec .phaseDm s = .next
          { s with
            gate := true
            ticks := if s.ticks = 31 then Config.freeTicks s.draws else s.ticks + 1
            draws := if s.ticks = 31 then s.draws + 1 else s.draws
            cont := false })

/-- R69, R57: a TICK in data-mark: with `index <= 31` it reads bit `index` and sends the first space period of that bit,
`index` counted; with `index = 32`, which needs FINAL_DM_EMITS, it sends the footer mark with `index` unchanged. -/
def Obligations.TickLeavesDataMark : Prop :=
  ∀ s : State, inv s = true → s.completed = false → s.state = 0b010 →
    (s.index ≤ 31 ∨ (s.index = 32 ∧ s.finalDmEmits = true))
    ∧ (s.index ≤ 31 → s.frame.getLsbD s.index.toNat = true →
        exec .tick s = .next
          { s with state := 0b011, ticks := 1, index := s.index + 1, gate := false, rsp := some 0 })
    ∧ (s.index ≤ 31 → s.frame.getLsbD s.index.toNat = false →
        exec .tick s = .next
          { s with state := 0b100, ticks := 1, index := s.index + 1, gate := false, rsp := some 0 })
    ∧ (s.index = 32 → exec .tick s = .next { s with state := 0b101, ticks := 1, gate := true, rsp := some 0 })

/-- Derived from R70: the phase step of data-high-space in every state, and a TICK in it: to the next data-mark, or, at
`index = 32` under the default parameter, through data-mark to footer-mark in the same TICK. At
`ticks = 31` the count does not fit 5 bits and is a free value: THE MODEL'S CHOICE (log entry 6), which no rule states. -/
def Obligations.DataHighSpaceStep : Prop :=
  decode (.phase 0b011) = some .phaseDhs
  ∧ (∀ s : State,
    exec .phaseDhs s = .next
      (if s.ticks = 3 then { s with state := 0b010, ticks := 0, cont := true }
       else if s.ticks = 31 then
         { s with gate := false, ticks := Config.freeTicks s.draws, draws := s.draws + 1, cont := false }
       else { s with gate := false, ticks := s.ticks + 1, cont := false }))
  ∧ ∀ s : State, inv s = true → s.completed = false → s.state = 0b011 →
      exec .tick s = .next
        (if s.ticks = 3 then
          { s with
            state := if s.index = 32 ∧ s.finalDmEmits = false then 0b101 else 0b010
            ticks := 1, gate := true, rsp := some 0 }
         else { s with ticks := s.ticks + 1, gate := false, rsp := some 0 })

/-- Derived from R71: the phase step of data-low-space in every state, and a TICK in it. At
`ticks = 31` the count does not fit 5 bits and is a free value: THE MODEL'S CHOICE (log entry 6), which no rule states. -/
def Obligations.DataLowSpaceStep : Prop :=
  decode (.phase 0b100) = some .phaseDls
  ∧ (∀ s : State,
    exec .phaseDls s = .next
      (if s.ticks = 1 then { s with state := 0b010, ticks := 0, cont := true }
       else if s.ticks = 31 then
         { s with gate := false, ticks := Config.freeTicks s.draws, draws := s.draws + 1, cont := false }
       else { s with gate := false, ticks := s.ticks + 1, cont := false }))
  ∧ ∀ s : State, inv s = true → s.completed = false → s.state = 0b100 →
      exec .tick s = .next
        { s with
          state := if s.index = 32 ∧ s.finalDmEmits = false then 0b101 else 0b010
          ticks := 1, gate := true, rsp := some 0 }

/-- Derived from R72: the phase step of footer-mark in every state, and a TICK in it. At
`ticks = 31` the count does not fit 5 bits and is a free value: THE MODEL'S CHOICE (log entry 6), which no rule states. -/
def Obligations.FooterMarkStep : Prop :=
  decode (.phase 0b101) = some .phaseFm
  ∧ (∀ s : State,
    exec .phaseFm s = .next
      (if s.ticks = 1 then { s with state := 0b110, ticks := 0, cont := true }
       else if s.ticks = 31 then
         { s with gate := true, ticks := Config.freeTicks s.draws, draws := s.draws + 1, cont := false }
       else { s with gate := true, ticks := s.ticks + 1, cont := false }))
  ∧ ∀ s : State, inv s = true → s.completed = false → s.state = 0b101 →
      s.index = 32
      ∧ exec .tick s = .next { s with state := 0b110, ticks := 1, gate := false, rsp := some 0 }

/-- Derived from R73: the phase step of footer-space in every state, and the completion tick, which writes no gate and
does not go on into header-mark. At
`ticks = 31` the count does not fit 5 bits and is a free value: THE MODEL'S CHOICE (log entry 6), which no rule states. -/
def Obligations.FooterSpaceStep : Prop :=
  decode (.phase 0b110) = some .phaseFs
  ∧ (∀ s : State,
    exec .phaseFs s = .next
      (if s.ticks = 1 then
        { s with index := 0, completed := true, frame := 0, state := 0b000, ticks := 0, cont := false }
       else if s.ticks = 31 then
         { s with gate := false, ticks := Config.freeTicks s.draws, draws := s.draws + 1, cont := false }
       else { s with gate := false, ticks := s.ticks + 1, cont := false }))
  ∧ ∀ s : State, inv s = true → s.completed = false → s.state = 0b110 →
      s.ready = false
      ∧ exec .tick s = .next
          { s with index := 0, completed := true, frame := 0, state := 0b000, ticks := 0, rsp := some 0 }
      ∧ ∀ f, registers (after .tick (after (.deposit f) (after .tick s))) = ⟨0b000, 1, 0, f, false, false, true⟩

/-- R78: the completion tick leaves exactly the state that INIT would leave, so every register is at its reset value and
every later behaviour is that after INIT. -/
def Obligations.CompletionEqualsInit : Prop :=
  ∀ s : State, inv s = true → s.completed = false → s.state = 0b110 →
    exec .tick s = exec .init s ∧ registers (after .tick s) = registers State.reset

/-- R79 in the vector T11, for every such state: from data-mark with `index = 31` and bit 31 = 0, one TICK enters
data-low-space, counts and emits a space. -/
def Obligations.LastLowBitCascadesInOneTick : Prop :=
  ∀ s : State, wf s = true → s.ready = false → s.completed = false → s.state = phaseCode .dm → s.index = 31 →
    s.ticks = 1 → s.frame.getLsbD 31 = false →
      exec .tick s = .next
        { s with state := phaseCode .dls, ticks := 1, index := 32, gate := false, rsp := some 0, cont := false }

/-- The frame of TICK, in every state. -/
def Obligations.TickFrame : Prop :=
  ∀ s t : State, exec .tick s = .next t →
    t.events = s.events ∧ t.finalDmEmits = s.finalDmEmits ∧ t.cont = false
    ∧ (wf s = false → registers t = registers s ∧ t.draws = s.draws)
    ∧ (wf s = true → t.faults = s.faults ∧ t.draws = s.draws ∧ t.ready = false)
    ∧ (s.ready = false → s.completed = true → registers t = registers s)
    ∧ (t.frame = s.frame ∨ (s.state = phaseCode .fs ∧ t.frame = 0 ∧ t.completed = true))
    ∧ (t.index = s.index ∨ (s.state = phaseCode .dm ∧ t.index = s.index + 1)
        ∨ (s.state = phaseCode .fs ∧ t.index = 0 ∧ t.completed = true))

/-- The frame of the seven phase steps, in every state. The counter `draws` is the model's own: it moves only where a
count does not fit its width (THE MODEL'S CHOICE, log entry 6). -/
def Obligations.PhaseStepFrame : Prop :=
  ∀ (p : Phase) (s t : State), exec (phaseInstr p) s = .next t →
    t.ready = s.ready ∧ t.faults = s.faults ∧ t.finalDmEmits = s.finalDmEmits ∧ t.rsp = s.rsp ∧ t.events = s.events
    ∧ (¬(p = .fs ∧ s.ticks = 1) → t.frame = s.frame ∧ t.completed = s.completed)
    ∧ (p ≠ .dm ∧ ¬(p = .fs ∧ s.ticks = 1) → t.index = s.index)
    ∧ (p = .dm → t.cont = false ∨ t.state = phaseCode .fm → t.index = s.index)
    ∧ (t.cont = true ∨ (p = .fs ∧ s.ticks = 1) → t.gate = s.gate)
    ∧ (t.cont = false → ¬(p = .fs ∧ s.ticks = 1) → t.state = s.state)
    ∧ (s.ticks ≠ 31 → s.index ≠ 63 → t.draws = s.draws)

/-- R42: while `completed = 0`, no event but INIT changes `frame`, but for the completion tick, which sets `completed` in
the same step. -/
def Obligations.FrameIsHeldInFlight : Prop :=
  ∀ (i : Instr) (s : State), s.completed = false → (∃ a, agentOf i = some a) → i ≠ .init →
    (after i s).frame = s.frame
    ∨ (i = .tick ∧ s.state = phaseCode .fs ∧ (after i s).frame = 0 ∧ (after i s).completed = true)

/-! Invariants -/

/-- The invariants hold at reset, for both values of the parameter and every schedule. -/
def Obligations.InvariantAtReset : Prop :=
  inv State.reset = true ∧ ∀ (b : Bool) (l : List EventWord) (n : Nat), inv (start b l n) = true

/-- Every step keeps the invariants INV1 to INV4 (R30 to R33), whatever event comes. -/
def Obligations.StepKeepsTheInvariants : Prop :=
  ∀ s t : State, inv s = true → step s = .next t → inv t = true

/-- A state that meets the invariants is well formed (R34). -/
def Obligations.InvariantsGiveWellFormedness : Prop :=
  ∀ s : State, inv s = true → wf s = true

/-- R30, R31, R32 in their own words, for every state that a run from reset comes to. -/
def Obligations.ReachableStatesMeetTheInvariants : Prop :=
  ∀ s : State, Reachable s →
    (s.ready = true → s.completed = true)
    ∧ (s.completed = true → s.state = phaseCode .hm ∧ s.ticks = 0 ∧ s.index = 0 ∧ s.gate = false)
    ∧ (s.completed = false → s.state ≠ 7
        ∧ ∃ p, s.state = phaseCode p ∧ 1 ≤ s.ticks ∧ s.ticks ≤ dur p ∧ s.gate = lvl p)

/-- No run from reset raises CorruptState (R94): where the invariants hold, a step adds nothing to the fault record, or a
ReservedEvent of a word that names no event. -/
def Obligations.InvariantsExcludeCorruptState : Prop :=
  ∀ s t : State, inv s = true → step s = .next t →
    t.faults = s.faults
    ∨ ∃ ev, t.faults = s.faults ++ [.reservedEvent ev] ∧ decode (.event ev) = none

/-- R92: a step records at most one fault; where it records one it writes no register and gives no response, the machine
goes on after it, and the entry is the arriving word that names no event, or `{state, ticks, index}` of a state that
fails WF; no step takes an entry away; the codes. -/
def Obligations.RaiseAppendsAndGoesOn : Prop :=
  (∀ s t : State, step s = .next t →
    t.faults = s.faults
    ∨ ∃ e, t.faults = s.faults ++ [e] ∧ registers t = registers s ∧ t.rsp = none ∧ (∃ u, step t = .next u)
        ∧ ((∃ ev, e = .reservedEvent ev ∧ arrival s = some ev ∧ decode (.event ev) = none)
          ∨ (e = .corruptState (corruptInfo s) ∧ wf s = false)))
  ∧ (∀ ev, faultCode (.reservedEvent ev) = 1) ∧ ∀ info, faultCode (.corruptState info) = 2

/-- R28: no event reads the fault record, and none clears it: with another record in its place a step does the same to all
else, and appends the same. -/
def Obligations.FaultRecordIsNeverRead : Prop :=
  State.reset.faults = []
  ∧ ∀ (s : State) (l : List Fault), ∃ t t' new,
    step s = .next t ∧ step (withFaults l s) = .next t'
    ∧ t.faults = s.faults ++ new ∧ t'.faults = l ++ new ∧ withFaults [] t = withFaults [] t'

/-- The parameter FINAL_DM_EMITS is fixed: no step writes it (R7, log entry 4). -/
def Obligations.ParameterIsNeverWritten : Prop :=
  ∀ s t : State, step s = .next t → t.finalDmEmits = s.finalDmEmits

/-! The pulse train -/

/-- R76: the phase and the gate of every tick period of a frame, for both values of FINAL_DM_EMITS, and the space in the
period of the completion tick. -/
def Obligations.FrameProducesItsPulseTrain : Prop :=
  ∀ s : State, inv s = true → s.ready = true →
    periods (emissions s.finalDmEmits s.frame) s = frameTrace s.finalDmEmits s.frame
    ∧ (ticksFrom (emissions s.finalDmEmits s.frame + 1) s).gate = false
    ∧ (ticksFrom (emissions s.finalDmEmits s.frame + 1) s).completed = true

/-- R45, R77: a deposited frame of `n` one bits is in flight after each of its `90 + 2n` TICKs (one more with
FINAL_DM_EMITS) and complete after the next, when all but `frame` and `ready` is as it was before the pickup. -/
def Obligations.FrameCompletesAtItsTick : Prop :=
  ∀ s : State, inv s = true → s.ready = true →
    (∀ k, 1 ≤ k → k ≤ emissions s.finalDmEmits s.frame → (ticksFrom k s).completed = false)
    ∧ ticksFrom (emissions s.finalDmEmits s.frame + 1) s = { s with frame := 0, ready := false, rsp := some 0 }

/-- R77: the periods of a frame: `90 + 2n` in all, 49 marks and `41 + 2n` spaces, one mark more with FINAL_DM_EMITS;
between 90 and 154 under the default. -/
def Obligations.PulseTrainCounts : Prop :=
  ∀ (b : Bool) (f : Frame),
    (frameTrace b f).length = emissions b f
    ∧ (frameTrace b f).countP (fun x => x.2) = (if b then 50 else 49)
    ∧ (frameTrace b f).countP (fun x => !x.2) = 41 + 2 * popcount f
    ∧ 90 ≤ emissions false f ∧ emissions false f ≤ 154

/-- R77: an assembled frame has `popcount(address) + 8` one bits whatever the command, so `106 + 2 * popcount(address)`
emissions. -/
def Obligations.AssembledFrameLength : Prop :=
  ∀ (a : BitVec 16) (c : BitVec 8),
    popcount (assemble a c) = (List.range 16).countP (fun k => a.getLsbD k) + 8
    ∧ emissions false (assemble a c) = 106 + 2 * (List.range 16).countP (fun k => a.getLsbD k)

/-- R80: at most two transitions in a TICK, two only from a data space through data-mark to footer-mark under the
default parameter; and the bound of the cascade is no limit, in every state whose code names a phase. -/
def Obligations.CascadeWorkIsBounded : Prop :=
  (∀ (n : Nat) (s : State), inv s = true →
    transitions n s ≤ 2
    ∧ (transitions n s = 2 →
        s.index = 32 ∧ s.finalDmEmits = false ∧ (s.state = phaseCode .dhs ∨ s.state = phaseCode .dls)))
  ∧ ∀ (n : Nat) (s : State), s.state ≠ 7 → cascade (cascadeBound + n) s = cascade cascadeBound s

/-- R87, R88: from a deposited frame to its completion tick, the host events, in any number and any order between the
TICKs, change no register: the registers are those the TICKs alone give. -/
def Obligations.HostEventsNeverDisturbAFrame : Prop :=
  ∀ (s : State) (l : List Instr), inv s = true → s.ready = true →
    (∀ i ∈ l, i = .tick ∨ agentOf i = some .host) →
    l.countP (fun i => decide (i = .tick)) ≤ emissions s.finalDmEmits s.frame →
      registers (afterAll l s) = registers (ticksFrom (l.countP (fun i => decide (i = .tick))) s)

/-- R89: frame B deposited after frame A's completion tick: every DEPOSIT before it is rejected, B's train follows whole,
and A's footer space and completion period lie between the two. -/
def Obligations.BackToBackFramesNeverInterleave : Prop :=
  ∀ (s : State) (b : Frame), inv s = true → s.ready = true →
    (∀ k, k ≤ emissions s.finalDmEmits s.frame → (after (.deposit b) (ticksFrom k s)).rsp = some 0)
    ∧ (ticksFrom (emissions s.finalDmEmits s.frame) s).gate = false
    ∧ (ticksFrom (emissions s.finalDmEmits s.frame + 1) s).gate = false
    ∧ (after (.deposit b) (ticksFrom (emissions s.finalDmEmits s.frame + 1) s)).rsp = some 1
    ∧ periods (emissions s.finalDmEmits b)
        (after (.deposit b) (ticksFrom (emissions s.finalDmEmits s.frame + 1) s)) = frameTrace s.finalDmEmits b

/-! The pin, the frame layout, SEND and WAITIDLE -/

/-- R75: the pin follows the carrier while the gate is 1 and is low while it is 0, for every value of the carrier. -/
def Obligations.PinFollowsTheGate : Prop :=
  ∀ (s : State) (carrier : Bool),
    (s.gate = true → irOut s carrier = carrier) ∧ (s.gate = false → irOut s carrier = false)

/-- R118: INIT cuts a frame off at once: whatever the carrier, the pin is low; the block is idle, and a TICK after it
changes no register. -/
def Obligations.InitCutsTheFrameOff : Prop :=
  ∀ s : State, (∀ carrier, irOut (after .init s) carrier = false)
    ∧ (after .status (after .init s)).rsp = some 0b101
    ∧ registers (after .tick (after .init s)) = registers (after .init s)

/-- R56, R55: an assembled frame is `{~command, command, address}`. -/
def Obligations.AssembledFrameFields : Prop :=
  ∀ (a : BitVec 16) (c : BitVec 8),
    (assemble a c).toNat = (255 - c.toNat) * 2 ^ 24 + c.toNat * 2 ^ 16 + a.toNat
    ∧ frameAddress (assemble a c) = a
    ∧ frameCommand (assemble a c) = c
    ∧ frameComplement (assemble a c) = ~~~c

/-- R85: SEND cuts its host values to `address[15:0]` and `command[7:0]`. -/
def Obligations.SendCutsItsOperands : Prop :=
  (∀ a c : Nat, frameAddress (sendFrame a c) = BitVec.ofNat 16 a ∧ frameCommand (sendFrame a c) = BitVec.ofNat 8 c
    ∧ sendFrame a c = sendFrame (a % 2 ^ 16) (c % 2 ^ 8))
  ∧ sendFrame 0x1EF00 0x102 = 0xFD02EF00

/-- R84: SEND of an address and a command deposits their assembled frame; each attempt that finds the block busy writes
no register and the loop goes on; the first that finds it idle hands the frame over and SEND returns at once; and SEND
returns in no other way. -/
def Obligations.SendReturnsOnAcceptance : Prop :=
  ∀ (a : BitVec 16) (c : BitVec 8),
    (∀ (others : List Instr) (rest : List (List Instr)) (s : State),
      (idle (afterAll others s) = true →
        runTask (sendTask a.toNat c.toNat) (others :: rest) s
          = (true, { afterAll others s with frame := assemble a c, ready := true, rsp := some 1, cont := false }))
      ∧ (idle (afterAll others s) = false →
        runTask (sendTask a.toNat c.toNat) (others :: rest) s
          = runTask (sendTask a.toNat c.toNat) rest { afterAll others s with rsp := some 0, cont := false }))
    ∧ ∀ (l : List (List Instr)) (s t : State), runTask (sendTask a.toNat c.toNat) l s = (true, t) →
        t.frame = assemble a c ∧ t.ready = true ∧ t.completed = true ∧ t.rsp = some 1

/-- R60: WAITIDLE returns at the first STATUS that finds the block idle, and writes no register. -/
def Obligations.WaitIdleReturnsWhenIdle : Prop :=
  ∀ (others : List Instr) (rest : List (List Instr)) (s : State),
    (idle (afterAll others s) = true →
      runTask .waitIdle (others :: rest) s = (true, { afterAll others s with rsp := some 0b101, cont := false }))
    ∧ (idle (afterAll others s) = false → ∃ v,
      runTask .waitIdle (others :: rest) s = runTask .waitIdle rest { afterAll others s with rsp := some v, cont := false })

/-- R95, R117: with no TICK (and no INIT) after a deposit, SEND spins for ever: whatever host events come between its
attempts, it never returns, and no register changes. -/
def Obligations.StoppedHeartbeatSpinsForEver : Prop :=
  ∀ (f : Frame) (l : List (List Instr)) (s : State), s.ready = true →
    (∀ others ∈ l, ∀ i ∈ others, agentOf i = some .host) →
      (runTask (.send f) l s).1 = false ∧ registers (runTask (.send f) l s).2 = registers s

/-- R90: SEND against a frame just deposited, with one TICK before each attempt: it is still waiting after as many TICKs
as that frame has emissions, and has handed its own frame over one TICK later. -/
def Obligations.SendWaitsExactlyOneFrame : Prop :=
  ∀ (s : State) (g : Frame), inv s = true → s.ready = true →
    (runTask (.send g) (List.replicate (emissions s.finalDmEmits s.frame) [.tick]) s).1 = false
    ∧ ∃ t, runTask (.send g) (List.replicate (emissions s.finalDmEmits s.frame + 1) [.tick]) s = (true, t)
        ∧ t.frame = g ∧ t.ready = true
end

