-- ==== Sys2Proof/Laws/State.lean ====
section
/-! SUPPORT. One lemma per field per named update of State, each true by rfl, so that no later proof unfolds an update. -/

namespace Sys2Proof.Machine

@[simp] theorem respond_state (v : Word) (s : State) : (respond v s).state = s.state := rfl
@[simp] theorem respond_ticks (v : Word) (s : State) : (respond v s).ticks = s.ticks := rfl
@[simp] theorem respond_index (v : Word) (s : State) : (respond v s).index = s.index := rfl
@[simp] theorem respond_frame (v : Word) (s : State) : (respond v s).frame = s.frame := rfl
@[simp] theorem respond_ready (v : Word) (s : State) : (respond v s).ready = s.ready := rfl
@[simp] theorem respond_completed (v : Word) (s : State) : (respond v s).completed = s.completed := rfl
@[simp] theorem respond_gate (v : Word) (s : State) : (respond v s).gate = s.gate := rfl
@[simp] theorem respond_faults (v : Word) (s : State) : (respond v s).faults = s.faults := rfl
@[simp] theorem respond_finalDmEmits (v : Word) (s : State) : (respond v s).finalDmEmits = s.finalDmEmits := rfl
@[simp] theorem respond_rsp (v : Word) (s : State) : (respond v s).rsp = some v := rfl
@[simp] theorem respond_cont (v : Word) (s : State) : (respond v s).cont = false := rfl
@[simp] theorem respond_events (v : Word) (s : State) : (respond v s).events = s.events := rfl
@[simp] theorem respond_draws (v : Word) (s : State) : (respond v s).draws = s.draws := rfl

@[simp] theorem raise_state (e : Fault) (s : State) : (raise e s).state = s.state := rfl
@[simp] theorem raise_ticks (e : Fault) (s : State) : (raise e s).ticks = s.ticks := rfl
@[simp] theorem raise_index (e : Fault) (s : State) : (raise e s).index = s.index := rfl
@[simp] theorem raise_frame (e : Fault) (s : State) : (raise e s).frame = s.frame := rfl
@[simp] theorem raise_ready (e : Fault) (s : State) : (raise e s).ready = s.ready := rfl
@[simp] theorem raise_completed (e : Fault) (s : State) : (raise e s).completed = s.completed := rfl
@[simp] theorem raise_gate (e : Fault) (s : State) : (raise e s).gate = s.gate := rfl
@[simp] theorem raise_faults (e : Fault) (s : State) : (raise e s).faults = s.faults ++ [e] := rfl
@[simp] theorem raise_finalDmEmits (e : Fault) (s : State) : (raise e s).finalDmEmits = s.finalDmEmits := rfl
@[simp] theorem raise_rsp (e : Fault) (s : State) : (raise e s).rsp = none := rfl
@[simp] theorem raise_cont (e : Fault) (s : State) : (raise e s).cont = false := rfl
@[simp] theorem raise_events (e : Fault) (s : State) : (raise e s).events = s.events := rfl
@[simp] theorem raise_draws (e : Fault) (s : State) : (raise e s).draws = s.draws := rfl

@[simp] theorem emit_state (p : Phase) (s : State) : (emit p s).state = s.state := rfl
@[simp] theorem emit_ticks (p : Phase) (s : State) : (emit p s).ticks = nextTicks s := rfl
@[simp] theorem emit_index (p : Phase) (s : State) : (emit p s).index = s.index := rfl
@[simp] theorem emit_frame (p : Phase) (s : State) : (emit p s).frame = s.frame := rfl
@[simp] theorem emit_ready (p : Phase) (s : State) : (emit p s).ready = s.ready := rfl
@[simp] theorem emit_completed (p : Phase) (s : State) : (emit p s).completed = s.completed := rfl
@[simp] theorem emit_gate (p : Phase) (s : State) : (emit p s).gate = lvl p := rfl
@[simp] theorem emit_faults (p : Phase) (s : State) : (emit p s).faults = s.faults := rfl
@[simp] theorem emit_finalDmEmits (p : Phase) (s : State) : (emit p s).finalDmEmits = s.finalDmEmits := rfl
@[simp] theorem emit_rsp (p : Phase) (s : State) : (emit p s).rsp = s.rsp := rfl
@[simp] theorem emit_cont (p : Phase) (s : State) : (emit p s).cont = false := rfl
@[simp] theorem emit_events (p : Phase) (s : State) : (emit p s).events = s.events := rfl
@[simp] theorem emit_draws (p : Phase) (s : State) : (emit p s).draws = if s.ticks = 31#5 then s.draws + 1 else s.draws := rfl

@[simp] theorem enter_state (p : Phase) (s : State) : (enter p s).state = phaseCode p := rfl
@[simp] theorem enter_ticks (p : Phase) (s : State) : (enter p s).ticks = 0#5 := rfl
@[simp] theorem enter_index (p : Phase) (s : State) : (enter p s).index = s.index := rfl
@[simp] theorem enter_frame (p : Phase) (s : State) : (enter p s).frame = s.frame := rfl
@[simp] theorem enter_ready (p : Phase) (s : State) : (enter p s).ready = s.ready := rfl
@[simp] theorem enter_completed (p : Phase) (s : State) : (enter p s).completed = s.completed := rfl
@[simp] theorem enter_gate (p : Phase) (s : State) : (enter p s).gate = s.gate := rfl
@[simp] theorem enter_faults (p : Phase) (s : State) : (enter p s).faults = s.faults := rfl
@[simp] theorem enter_finalDmEmits (p : Phase) (s : State) : (enter p s).finalDmEmits = s.finalDmEmits := rfl
@[simp] theorem enter_rsp (p : Phase) (s : State) : (enter p s).rsp = s.rsp := rfl
@[simp] theorem enter_cont (p : Phase) (s : State) : (enter p s).cont = true := rfl
@[simp] theorem enter_events (p : Phase) (s : State) : (enter p s).events = s.events := rfl
@[simp] theorem enter_draws (p : Phase) (s : State) : (enter p s).draws = s.draws := rfl

@[simp] theorem countBit_state (s : State) : (countBit s).state = s.state := rfl
@[simp] theorem countBit_ticks (s : State) : (countBit s).ticks = s.ticks := rfl
@[simp] theorem countBit_index (s : State) : (countBit s).index = nextIndex s := rfl
@[simp] theorem countBit_frame (s : State) : (countBit s).frame = s.frame := rfl
@[simp] theorem countBit_ready (s : State) : (countBit s).ready = s.ready := rfl
@[simp] theorem countBit_completed (s : State) : (countBit s).completed = s.completed := rfl
@[simp] theorem countBit_gate (s : State) : (countBit s).gate = s.gate := rfl
@[simp] theorem countBit_faults (s : State) : (countBit s).faults = s.faults := rfl
@[simp] theorem countBit_finalDmEmits (s : State) : (countBit s).finalDmEmits = s.finalDmEmits := rfl
@[simp] theorem countBit_rsp (s : State) : (countBit s).rsp = s.rsp := rfl
@[simp] theorem countBit_cont (s : State) : (countBit s).cont = s.cont := rfl
@[simp] theorem countBit_events (s : State) : (countBit s).events = s.events := rfl
@[simp] theorem countBit_draws (s : State) : (countBit s).draws = if s.index = 63#6 then s.draws + 1 else s.draws := rfl

@[simp] theorem complete_state (s : State) : (complete s).state = phaseCode .hm := rfl
@[simp] theorem complete_ticks (s : State) : (complete s).ticks = 0#5 := rfl
@[simp] theorem complete_index (s : State) : (complete s).index = 0#6 := rfl
@[simp] theorem complete_frame (s : State) : (complete s).frame = 0#32 := rfl
@[simp] theorem complete_ready (s : State) : (complete s).ready = s.ready := rfl
@[simp] theorem complete_completed (s : State) : (complete s).completed = true := rfl
@[simp] theorem complete_gate (s : State) : (complete s).gate = s.gate := rfl
@[simp] theorem complete_faults (s : State) : (complete s).faults = s.faults := rfl
@[simp] theorem complete_finalDmEmits (s : State) : (complete s).finalDmEmits = s.finalDmEmits := rfl
@[simp] theorem complete_rsp (s : State) : (complete s).rsp = s.rsp := rfl
@[simp] theorem complete_cont (s : State) : (complete s).cont = false := rfl
@[simp] theorem complete_events (s : State) : (complete s).events = s.events := rfl
@[simp] theorem complete_draws (s : State) : (complete s).draws = s.draws := rfl

@[simp] theorem placeEvent_state (ev : EventWord) (s : State) : (placeEvent ev s).state = s.state := rfl
@[simp] theorem placeEvent_ticks (ev : EventWord) (s : State) : (placeEvent ev s).ticks = s.ticks := rfl
@[simp] theorem placeEvent_index (ev : EventWord) (s : State) : (placeEvent ev s).index = s.index := rfl
@[simp] theorem placeEvent_frame (ev : EventWord) (s : State) : (placeEvent ev s).frame = s.frame := rfl
@[simp] theorem placeEvent_ready (ev : EventWord) (s : State) : (placeEvent ev s).ready = s.ready := rfl
@[simp] theorem placeEvent_completed (ev : EventWord) (s : State) : (placeEvent ev s).completed = s.completed := rfl
@[simp] theorem placeEvent_gate (ev : EventWord) (s : State) : (placeEvent ev s).gate = s.gate := rfl
@[simp] theorem placeEvent_faults (ev : EventWord) (s : State) : (placeEvent ev s).faults = s.faults := rfl
@[simp] theorem placeEvent_finalDmEmits (ev : EventWord) (s : State) : (placeEvent ev s).finalDmEmits = s.finalDmEmits := rfl
@[simp] theorem placeEvent_rsp (ev : EventWord) (s : State) : (placeEvent ev s).rsp = s.rsp := rfl
@[simp] theorem placeEvent_cont (ev : EventWord) (s : State) : (placeEvent ev s).cont = false := rfl
@[simp] theorem placeEvent_events (ev : EventWord) (s : State) : (placeEvent ev s).events = ev :: s.events := rfl
@[simp] theorem placeEvent_draws (ev : EventWord) (s : State) : (placeEvent ev s).draws = s.draws := rfl

@[simp] theorem placePhase_state (c : PhaseCode) (s : State) : (placePhase c s).state = c := rfl
@[simp] theorem placePhase_ticks (c : PhaseCode) (s : State) : (placePhase c s).ticks = s.ticks := rfl
@[simp] theorem placePhase_index (c : PhaseCode) (s : State) : (placePhase c s).index = s.index := rfl
@[simp] theorem placePhase_frame (c : PhaseCode) (s : State) : (placePhase c s).frame = s.frame := rfl
@[simp] theorem placePhase_ready (c : PhaseCode) (s : State) : (placePhase c s).ready = false := rfl
@[simp] theorem placePhase_completed (c : PhaseCode) (s : State) : (placePhase c s).completed = false := rfl
@[simp] theorem placePhase_gate (c : PhaseCode) (s : State) : (placePhase c s).gate = s.gate := rfl
@[simp] theorem placePhase_faults (c : PhaseCode) (s : State) : (placePhase c s).faults = s.faults := rfl
@[simp] theorem placePhase_finalDmEmits (c : PhaseCode) (s : State) : (placePhase c s).finalDmEmits = s.finalDmEmits := rfl
@[simp] theorem placePhase_rsp (c : PhaseCode) (s : State) : (placePhase c s).rsp = s.rsp := rfl
@[simp] theorem placePhase_cont (c : PhaseCode) (s : State) : (placePhase c s).cont = true := rfl
@[simp] theorem placePhase_events (c : PhaseCode) (s : State) : (placePhase c s).events = s.events := rfl
@[simp] theorem placePhase_draws (c : PhaseCode) (s : State) : (placePhase c s).draws = s.draws := rfl

/-- Pickup as one update (R63). -/
theorem pickup_eq (s : State) :
    pickup s = { s with ready := false, completed := s.completed && !s.ready } := by
  unfold pickup
  split
  · simp_all
  · cases s; simp_all

@[simp] theorem pickup_state (s : State) : (pickup s).state = s.state := by rw [pickup_eq]
@[simp] theorem pickup_ticks (s : State) : (pickup s).ticks = s.ticks := by rw [pickup_eq]
@[simp] theorem pickup_index (s : State) : (pickup s).index = s.index := by rw [pickup_eq]
@[simp] theorem pickup_frame (s : State) : (pickup s).frame = s.frame := by rw [pickup_eq]
@[simp] theorem pickup_ready (s : State) : (pickup s).ready = false := by rw [pickup_eq]
@[simp] theorem pickup_completed (s : State) : (pickup s).completed = (s.completed && !s.ready) := by rw [pickup_eq]
@[simp] theorem pickup_gate (s : State) : (pickup s).gate = s.gate := by rw [pickup_eq]
@[simp] theorem pickup_faults (s : State) : (pickup s).faults = s.faults := by rw [pickup_eq]
@[simp] theorem pickup_finalDmEmits (s : State) : (pickup s).finalDmEmits = s.finalDmEmits := by rw [pickup_eq]
@[simp] theorem pickup_rsp (s : State) : (pickup s).rsp = s.rsp := by rw [pickup_eq]
@[simp] theorem pickup_cont (s : State) : (pickup s).cont = s.cont := by rw [pickup_eq]
@[simp] theorem pickup_events (s : State) : (pickup s).events = s.events := by rw [pickup_eq]
@[simp] theorem pickup_draws (s : State) : (pickup s).draws = s.draws := by rw [pickup_eq]

/-- A TICK with nothing deposited picks nothing up (R63). -/
theorem pickup_of_not_ready (s : State) (h : s.ready = false) : pickup s = s := by
  simp [pickup, h]

@[simp] theorem afterArrival_state (s : State) : (afterArrival s).state = s.state := by unfold afterArrival; split <;> rfl
@[simp] theorem afterArrival_ticks (s : State) : (afterArrival s).ticks = s.ticks := by unfold afterArrival; split <;> rfl
@[simp] theorem afterArrival_index (s : State) : (afterArrival s).index = s.index := by unfold afterArrival; split <;> rfl
@[simp] theorem afterArrival_frame (s : State) : (afterArrival s).frame = s.frame := by unfold afterArrival; split <;> rfl
@[simp] theorem afterArrival_ready (s : State) : (afterArrival s).ready = s.ready := by unfold afterArrival; split <;> rfl
@[simp] theorem afterArrival_completed (s : State) : (afterArrival s).completed = s.completed := by unfold afterArrival; split <;> rfl
@[simp] theorem afterArrival_gate (s : State) : (afterArrival s).gate = s.gate := by unfold afterArrival; split <;> rfl
@[simp] theorem afterArrival_faults (s : State) : (afterArrival s).faults = s.faults := by unfold afterArrival; split <;> rfl
@[simp] theorem afterArrival_finalDmEmits (s : State) : (afterArrival s).finalDmEmits = s.finalDmEmits := by unfold afterArrival; split <;> rfl
@[simp] theorem afterArrival_rsp (s : State) : (afterArrival s).rsp = s.rsp := by unfold afterArrival; split <;> rfl
@[simp] theorem afterArrival_cont (s : State) : (afterArrival s).cont = s.cont := by unfold afterArrival; split <;> rfl

/-- A listed event arrives before any free one, and is taken off the list (R43). -/
theorem arrival_cons (s : State) (ev : EventWord) (rest : List EventWord) (h : s.events = ev :: rest) :
    arrival s = some ev ∧ afterArrival s = { s with events := rest } := by
  simp [arrival, afterArrival, h]

/-- With no event listed the agents' next event is free (R43 d). -/
theorem arrival_nil (s : State) (h : s.events = []) :
    arrival s = Config.nextEvent s.draws ∧ afterArrival s = { s with draws := s.draws + 1 } := by
  simp [arrival, afterArrival, h]

end Sys2Proof.Machine
end

