-- ==== Sys2Proof/Laws/Ops.lean ====
section
/-! SUPPORT. What the shared operations can do: the phase codes, the well-formedness check, the counters, idle. -/

namespace Sys2Proof.Machine

@[simp] theorem phaseOfCode_phaseCode (p : Phase) : phaseOfCode (phaseCode p) = some p := by
  cases p <;> decide

/-- A code names a phase exactly when it is that phase's code (R15). -/
theorem phaseOfCode_eq_some (c : PhaseCode) (p : Phase) : phaseOfCode c = some p ↔ c = phaseCode p := by
  revert c
  cases p <;> decide

/-- Only the reserved code 7 names no phase (R15). -/
theorem phaseOfCode_eq_none (c : PhaseCode) : phaseOfCode c = none ↔ c = 7#3 := by
  revert c
  decide

@[simp] theorem decodePhase_phaseCode (p : Phase) : decodePhase (phaseCode p) = some (phaseInstr p) := by
  simp [decodePhase]

/-- A state is well formed exactly when its code names a phase, whose duration bounds `ticks`, and `index <= 32` (R34). -/
theorem wf_iff (s : State) :
    wf s = true ↔ ∃ p, s.state = phaseCode p ∧ s.ticks ≤ dur p ∧ s.index ≤ 32#6 := by
  unfold wf
  constructor
  · intro h
    split at h
    next p hp => exact ⟨p, (phaseOfCode_eq_some _ _).1 hp, by simpa using h⟩
    · cases h
  · rintro ⟨p, hp, ht, hi⟩
    simp [hp, ht, hi]

/-- No duration comes near the width of `ticks` (R16). -/
theorem dur_lt (p : Phase) : dur p < 17#5 := by cases p <;> decide

/-- Every duration is at least 1 (R66). -/
theorem dur_pos (p : Phase) : 0#5 < dur p := by cases p <;> decide

/-- In a well-formed state `ticks` counts exactly (R10, R16). -/
theorem nextTicks_of_le (s : State) (p : Phase) (h : s.ticks ≤ dur p) : nextTicks s = s.ticks + 1#5 := by
  have hp := dur_lt p
  have h31 : s.ticks ≠ 31#5 := by bv_omega
  simp [nextTicks, h31]

/-- In a well-formed state `index` counts exactly (R10, R17). -/
theorem nextIndex_of_le (s : State) (h : s.index ≤ 32#6) : nextIndex s = s.index + 1#6 := by
  have h63 : s.index ≠ 63#6 := by bv_omega
  simp [nextIndex, h63]

/-- A phase freshly entered makes its first emission count 1. -/
theorem nextTicks_of_zero (s : State) (h : s.ticks = 0#5) : nextTicks s = 1#5 := by
  simp [nextTicks, h]

/-- The counter of free values moves only where `ticks` has no successor in 5 bits. -/
theorem emit_draws_of_le (s : State) (p q : Phase) (h : s.ticks ≤ dur p) : (emit q s).draws = s.draws := by
  have hp := dur_lt p
  have h31 : s.ticks ≠ 31#5 := by bv_omega
  simp [h31]

/-- A timed phase step either enters the next phase, its duration used up, or emits (R67, R68, R70-R72). -/
theorem timedStep_cases (p q : Phase) (s : State) :
    (s.ticks = dur p ∧ timedStep p q s = enter q s) ∨ (s.ticks ≠ dur p ∧ timedStep p q s = emit p s) := by
  unfold timedStep
  split <;> simp_all

/-- The block is idle exactly when `completed = 1` and `ready = 0` (R22). -/
theorem idle_iff (s : State) : idle s = true ↔ s.completed = true ∧ s.ready = false := by
  simp [idle]

end Sys2Proof.Machine
end

