-- ==== Sys2Proof/Laws/Encoder.lean ====
section
/-! SUPPORT. What a cascade does, phase by phase (40_encoder.md R66 to R73): at most two transitions and one emission,
or the completion tick. -/

namespace Sys2Proof.Machine

theorem cascade_succ (n : Nat) (p : Phase) (s : State) (h : s.state = phaseCode p) :
    cascade (n + 1) s = if (phaseStep p s).cont then cascade n (phaseStep p s) else phaseStep p s := by
  simp [cascade, h]

/-- A phase step that emits ends the cascade (R66). -/
theorem cascade_emit (n : Nat) (p : Phase) (s : State) (h : s.state = phaseCode p)
    (he : phaseStep p s = emit p s) : cascade (n + 1) s = emit p s := by
  simp [cascade_succ n p s h, he]

/-- A phase step that enters a phase hands over to it within the same TICK (R66). -/
theorem cascade_enter (n : Nat) (p q : Phase) (s t : State) (h : s.state = phaseCode p)
    (he : phaseStep p s = enter q t) : cascade (n + 1) s = cascade n (enter q t) := by
  simp [cascade_succ n p s h, he]

/-- A phase just entered emits at once, but for data-mark at the end of the data (R66). -/
theorem cascade_fresh (n : Nat) (p : Phase) (s : State)
    (h : p ≠ .dm ∨ s.index ≠ 32#6 ∨ s.finalDmEmits = true) :
    cascade (n + 1) (enter p s) = emit p (enter p s) := by
  apply cascade_emit n p _ rfl
  cases p <;> simp_all [phaseStep, stepHm, stepHs, stepDm, stepDhs, stepDls, stepFm, stepFs, timedStep, dur]
  rcases h with h | h <;> simp [h]

/-- Data-mark just entered: at the end of the data it emits nothing unless FINAL_DM_EMITS says so (R69, R7). -/
theorem cascade_fresh_dm (n : Nat) (s : State) :
    cascade (n + 2) (enter .dm s)
      = if s.index = 32#6 ∧ s.finalDmEmits = false then emit .fm (enter .fm (enter .dm s))
        else emit .dm (enter .dm s) := by
  split
  next h =>
    rw [cascade_enter (n + 1) .dm .fm (enter .dm s) (enter .dm s) rfl (by simp [phaseStep, stepDm, h])]
    exact cascade_fresh n .fm _ (Or.inl (by decide))
  next h =>
    apply cascade_fresh
    simp only [not_and] at h
    by_cases h32 : s.index = 32#6 <;> simp_all

theorem cascade_hm (s : State) (h : s.state = phaseCode .hm) :
    cascade cascadeBound s = if s.ticks = 16#5 then emit .hs (enter .hs s) else emit .hm s := by
  split
  next ht =>
    rw [cascadeBound, cascade_enter 2 .hm .hs s s h (by simp [phaseStep, stepHm, timedStep, dur, ht])]
    exact cascade_fresh 1 .hs s (Or.inl (by decide))
  next ht => exact cascade_emit 2 .hm s h (by simp [phaseStep, stepHm, timedStep, dur, ht])

theorem cascade_hs (s : State) (h : s.state = phaseCode .hs) :
    cascade cascadeBound s
      = if s.ticks = 8#5 then
          if s.index = 32#6 ∧ s.finalDmEmits = false then emit .fm (enter .fm (enter .dm s))
          else emit .dm (enter .dm s)
        else emit .hs s := by
  by_cases ht : s.ticks = 8#5
  · rw [if_pos ht, cascadeBound, cascade_enter 2 .hs .dm s s h (by simp [phaseStep, stepHs, timedStep, dur, ht])]
    exact cascade_fresh_dm 0 s
  · rw [if_neg ht]
    exact cascade_emit 2 .hs s h (by simp [phaseStep, stepHs, timedStep, dur, ht])

theorem cascade_dm (s : State) (h : s.state = phaseCode .dm) :
    cascade cascadeBound s
      = if s.index = 32#6 ∧ (s.finalDmEmits = false ∨ s.ticks = 1#5) then emit .fm (enter .fm s)
        else if s.ticks = 1#5 then
          if frameBit s.frame s.index then emit .dhs (enter .dhs (countBit s))
          else emit .dls (enter .dls (countBit s))
        else emit .dm s := by
  by_cases h32 : s.index = 32#6 ∧ (s.finalDmEmits = false ∨ s.ticks = 1#5)
  · rw [if_pos h32, cascadeBound, cascade_enter 2 .dm .fm s s h (by simp [phaseStep, stepDm, h32])]
    exact cascade_fresh 1 .fm s (Or.inl (by decide))
  · rw [if_neg h32]
    by_cases ht : s.ticks = 1#5
    · rw [if_pos ht]
      split
      next hb =>
        rw [cascadeBound, cascade_enter 2 .dm .dhs s (countBit s) h
          (by simp only [phaseStep, stepDm]; rw [if_neg h32, if_pos ht, if_pos hb])]
        exact cascade_fresh 1 .dhs _ (Or.inl (by decide))
      next hb =>
        rw [cascadeBound, cascade_enter 2 .dm .dls s (countBit s) h
          (by simp only [phaseStep, stepDm]; rw [if_neg h32, if_pos ht, if_neg hb])]
        exact cascade_fresh 1 .dls _ (Or.inl (by decide))
    · rw [if_neg ht]
      exact cascade_emit 2 .dm s h (by simp only [phaseStep, stepDm]; rw [if_neg h32, if_neg ht])

theorem cascade_dhs (s : State) (h : s.state = phaseCode .dhs) :
    cascade cascadeBound s
      = if s.ticks = 3#5 then
          if s.index = 32#6 ∧ s.finalDmEmits = false then emit .fm (enter .fm (enter .dm s))
          else emit .dm (enter .dm s)
        else emit .dhs s := by
  by_cases ht : s.ticks = 3#5
  · rw [if_pos ht, cascadeBound, cascade_enter 2 .dhs .dm s s h (by simp [phaseStep, stepDhs, timedStep, dur, ht])]
    exact cascade_fresh_dm 0 s
  · rw [if_neg ht]
    exact cascade_emit 2 .dhs s h (by simp [phaseStep, stepDhs, timedStep, dur, ht])

theorem cascade_dls (s : State) (h : s.state = phaseCode .dls) :
    cascade cascadeBound s
      = if s.ticks = 1#5 then
          if s.index = 32#6 ∧ s.finalDmEmits = false then emit .fm (enter .fm (enter .dm s))
          else emit .dm (enter .dm s)
        else emit .dls s := by
  by_cases ht : s.ticks = 1#5
  · rw [if_pos ht, cascadeBound, cascade_enter 2 .dls .dm s s h (by simp [phaseStep, stepDls, timedStep, dur, ht])]
    exact cascade_fresh_dm 0 s
  · rw [if_neg ht]
    exact cascade_emit 2 .dls s h (by simp [phaseStep, stepDls, timedStep, dur, ht])

theorem cascade_fm (s : State) (h : s.state = phaseCode .fm) :
    cascade cascadeBound s = if s.ticks = 1#5 then emit .fs (enter .fs s) else emit .fm s := by
  split
  next ht =>
    rw [cascadeBound, cascade_enter 2 .fm .fs s s h (by simp [phaseStep, stepFm, timedStep, dur, ht])]
    exact cascade_fresh 1 .fs s (Or.inl (by decide))
  next ht => exact cascade_emit 2 .fm s h (by simp [phaseStep, stepFm, timedStep, dur, ht])

theorem cascade_fs (s : State) (h : s.state = phaseCode .fs) :
    cascade cascadeBound s = if s.ticks = 1#5 then complete s else emit .fs s := by
  split
  next ht => simp [cascadeBound, cascade_succ 2 .fs s h, phaseStep, stepFs, ht]
  next ht => exact cascade_emit 2 .fs s h (by simp [phaseStep, stepFs, ht])

/-- The bound on a cascade's phase steps is enough: in every state whose code names a phase, well formed or not, the
cascade ends with DONE (R66, R80). -/
theorem cascade_done (s : State) (p : Phase) (h : s.state = phaseCode p) :
    (cascade cascadeBound s).cont = false := by
  cases p
  · rw [cascade_hm s h]; split <;> simp
  · rw [cascade_hs s h]; split <;> [split; skip] <;> simp
  · rw [cascade_dm s h]; split <;> [skip; (split <;> [split; skip])] <;> simp
  · rw [cascade_dhs s h]; split <;> [split; skip] <;> simp
  · rw [cascade_dls s h]; split <;> [split; skip] <;> simp
  · rw [cascade_fm s h]; split <;> simp
  · rw [cascade_fs s h]; split <;> simp

/-- Everything a TICK can do (R62): raise CorruptState, nothing, or a cascade from the picked-up state. -/
theorem execTick_cases (s : State) :
    (wf s = false ∧ execTick s = .next (raise (.corruptState (corruptInfo s)) s))
    ∨ (wf s = true ∧ s.ready = false ∧ s.completed = true ∧ execTick s = .next (respond 0#32 s))
    ∨ (wf s = true ∧ (s.ready = true ∨ s.completed = false)
        ∧ execTick s = .next (respond 0#32 (cascade cascadeBound (pickup s)))) := by
  unfold execTick
  by_cases hw : wf s = false
  · exact Or.inl ⟨hw, by simp [hw]⟩
  · have hw' : wf s = true := by simpa using hw
    cases hr : s.ready <;> cases hc : s.completed <;> simp [hw', hr, hc, pickup_of_not_ready]

end Sys2Proof.Machine
end

