-- ==== Sys2Proof/Laws/Encoding.lean ====
section
/-! SUPPORT. The fields of an event word (30_encoding.md R48), and that the encoder and the checks agree on them. -/

namespace Sys2Proof

@[simp] theorem eventOp_eventWord (op : BitVec 3) (d : Word) : eventOp (eventWord op d) = op := by
  ext i hi
  have h : 32 + i < 35 := by omega
  simp [eventOp, eventWord, h, BitVec.getLsbD_eq_getElem hi]

@[simp] theorem eventData_eventWord (op : BitVec 3) (d : Word) : eventData (eventWord op d) = d := by
  ext i hi
  have h : i < 35 := by omega
  simp [eventData, eventWord, hi, h]

/-- An event word is nothing but its two fields (R48). -/
theorem eventWord_fields (ev : EventWord) : eventWord (eventOp ev) (eventData ev) = ev := by
  ext i hi
  by_cases h : i < 32
  · simp [eventData, eventWord, eventOp, h]
    rfl
  · have h1 : i - 32 < 3 := by omega
    have h2 : 32 + (i - 32) = i := by omega
    simp [eventData, eventWord, eventOp, h, h1, h2]
    rfl

/-- The check of `op`, on its field (R50). -/
theorem opDefined_eq (ev : EventWord) : ev.opDefined = decide (eventOp ev < 4#3) := rfl

/-- The check of `data`, on its fields (R51). -/
theorem dataDefined_eq (ev : EventWord) :
    ev.dataDefined = (eventOp ev == 1#3 || eventData ev == 0#32) := rfl

end Sys2Proof
end

