-- ==== Sys2Proof/Laws/Exec.lean ====
section
/-! SUPPORT. What exec and step can answer: one inversion lemma each. -/

namespace Sys2Proof.Machine

theorem exec_phaseInstr (p : Phase) (s : State) : exec (phaseInstr p) s = .next (phaseStep p s) := by
  cases p <;> rfl

/-- Every instruction answers a next state, in every state. -/
theorem exec_next (i : Instr) (s : State) : ∃ t, exec i s = .next t := by
  cases i <;> simp only [exec, execTick, execDeposit, execStatus, execInit, execPhaseHm, execPhaseHs, execPhaseDm,
    execPhaseDhs, execPhaseDls, execPhaseFm, execPhaseFs] <;> (try split) <;> (try split) <;> exact ⟨_, rfl⟩

/-- `after` is the next state that exec answers. -/
theorem exec_eq_after (i : Instr) (s : State) : exec i s = .next (after i s) := by
  obtain ⟨t, h⟩ := exec_next i s
  simp [after, h]

theorem exec_eq_next_iff (i : Instr) (s t : State) : exec i s = .next t ↔ after i s = t := by
  simp [exec_eq_after]

@[simp] theorem after_deposit (f : Frame) (s : State) :
    after (.deposit f) s
      = if idle s then respond 1#32 { s with frame := f, ready := true } else respond 0#32 s := by
  by_cases h : idle s = true <;> simp [after, exec, execDeposit, h]

@[simp] theorem after_status (s : State) : after .status s = respond (statusWord s) s := rfl

theorem decode_event (ev : EventWord) (i : Instr) (h : decode (.event ev) = some i) :
    i = .tick ∨ (∃ f, i = .deposit f) ∨ i = .status ∨ i = .init := by
  simp only [decode, decodeEvent] at h
  repeat' split at h
  all_goals simp at h
  all_goals simp [← h]

/-- Everything one step can do when no cascade is open (R43): an event named by the arriving word runs, a reserved
word raises ReservedEvent, or nothing arrives. -/
theorem step_cases (s : State) (h : s.cont = false) :
    (∃ ev i, arrival s = some ev ∧ decode (.event ev) = some i ∧ step s = .next (after i (afterArrival s)))
    ∨ (∃ ev, arrival s = some ev ∧ decode (.event ev) = none
        ∧ step s = .next (raise (.reservedEvent ev) (afterArrival s)))
    ∨ (arrival s = none ∧ step s = .next (afterArrival s)) := by
  simp only [step, h, stepEvent, applyWord]
  cases ha : arrival s with
  | none => simp
  | some ev =>
    cases hd : decode (.event ev) with
    | none => simp [hd]
    | some i => simp [hd, exec_eq_after]

/-- Everything one step can do when a cascade is open (R39, R66): the phase's step, with the TICK's response when it
answers DONE, or CorruptState on the reserved code. -/
theorem step_cascade_cases (s : State) (h : s.cont = true) :
    (∃ p, s.state = phaseCode p
        ∧ step s = .next (if (phaseStep p s).cont then phaseStep p s else respond 0#32 (phaseStep p s)))
    ∨ (s.state = 7#3 ∧ step s = .next (raise (.corruptState (corruptInfo s)) s)) := by
  simp only [step, h, resumeCascade, decode, decodePhase, if_true]
  cases hp : phaseOfCode s.state with
  | none => exact Or.inr ⟨(phaseOfCode_eq_none _).1 hp, rfl⟩
  | some p => exact Or.inl ⟨p, (phaseOfCode_eq_some _ _).1 hp, by simp [exec_phaseInstr, finishTick]⟩

end Sys2Proof.Machine
end

