-- ==== Sys2Proof/Laws/InFlight.lean ====
section
/-! SUPPORT. The two kinds of state that the invariants allow, idle and in flight (10_state.md R31 to R33), and the TICK
in each. -/

namespace Sys2Proof.Machine

open Sys2Proof.Safety

theorem phaseCode_inj (p q : Phase) (h : phaseCode p = phaseCode q) : p = q := by
  revert h
  cases p <;> cases q <;> decide

/-- What the invariants say of a block in flight at phase `p` (R30, R32, R33). -/
structure InFlight (p : Phase) (s : State) : Prop where
  state_eq : s.state = phaseCode p
  ready_eq : s.ready = false
  completed_eq : s.completed = false
  one_le : 1#5 ≤ s.ticks
  le_dur : s.ticks ≤ dur p
  gate_eq : s.gate = lvl p
  index_fits : indexFits p s = true
  cont_eq : s.cont = false

/-- In flight, the invariants are exactly `InFlight` at some phase. -/
theorem inv_of_not_completed (s : State) (hc : s.completed = false) :
    inv s = true ↔ ∃ p, InFlight p s := by
  constructor
  · intro h
    simp [inv, inv1, inv2, inv3, inv4, hc] at h
    cases hp : phaseOfCode s.state with
    | none => simp [hp] at h
    | some p =>
      simp [hp] at h
      exact ⟨p, (phaseOfCode_eq_some _ _).1 hp, h.1.1.1, hc, h.1.1.2.1.1, h.1.1.2.1.2, h.1.1.2.2, h.1.2, h.2⟩
  · rintro ⟨p, hp, hr, -, h1, ht, hg, hi, hk⟩
    simp [inv, inv1, inv2, inv3, inv4, hp, hr, hc, hg, hi, hk, h1, ht]

/-- With no transmission in flight, the invariants are the reset configuration, but for `frame` and `ready` (R31). -/
theorem inv_of_completed (s : State) (hc : s.completed = true) :
    inv s = true
      ↔ s.state = phaseCode .hm ∧ s.ticks = 0#5 ∧ s.index = 0#6 ∧ s.gate = false ∧ s.cont = false := by
  simp [inv, inv1, inv2, inv3, inv4, hc, and_assoc]

theorem InFlight.index_le {p : Phase} {s : State} (h : InFlight p s) : s.index ≤ 32#6 := by
  have hi := h.index_fits
  cases p <;> simp [indexFits] at hi <;> bv_omega

theorem InFlight.wf_eq {p : Phase} {s : State} (h : InFlight p s) : wf s = true :=
  (wf_iff s).2 ⟨p, h.state_eq, h.le_dur, h.index_le⟩

/-- A TICK in flight is one cascade (R62). -/
theorem InFlight.tick {p : Phase} {s : State} (h : InFlight p s) :
    exec .tick s = .next (respond 0#32 (cascade cascadeBound s)) := by
  simp [exec, execTick, h.wf_eq, pickup_of_not_ready s h.ready_eq, h.completed_eq]

/-- A phase that holds one emission has made it whenever it is in flight (R32). -/
theorem InFlight.ticks_eq_one {p : Phase} {s : State} (h : InFlight p s) (hd : dur p = 1#5) : s.ticks = 1#5 := by
  have h1 := h.one_le
  have h2 := h.le_dur
  rw [hd] at h2
  bv_omega

end Sys2Proof.Machine
end

