-- ==== Sys2Proof/Laws/PerInstr.lean ====
section
/-! SUPPORT. A statement made per instruction: the encoder writes only words that the well-formedness checks accept
(30_encoding.md R50, R51, R58). -/

namespace Sys2Proof.Laws.Encodes

/-- The word of a well-formed instruction passes every check on words. -/
def Statement (i : Instr) : Prop := i.wellFormed = true → (encode i).wellFormed = true

theorem tick : Statement .tick := fun _ => by decide

theorem deposit (f : Frame) : Statement (.deposit f) := fun _ => by
  simp [encode, TableWord.wellFormed, opDefined_eq, dataDefined_eq]

theorem status : Statement .status := fun _ => by decide

theorem init : Statement .init := fun _ => by decide

theorem phaseHm : Statement .phaseHm := fun _ => by decide

theorem phaseHs : Statement .phaseHs := fun _ => by decide

theorem phaseDm : Statement .phaseDm := fun _ => by decide

theorem phaseDhs : Statement .phaseDhs := fun _ => by decide

theorem phaseDls : Statement .phaseDls := fun _ => by decide

theorem phaseFm : Statement .phaseFm := fun _ => by decide

theorem phaseFs : Statement .phaseFs := fun _ => by decide

end Sys2Proof.Laws.Encodes
end

