-- ==== Sys2Proof/Tests/Slice0.lean ====
section
/-! SUPPORT. Small tests: the well-formedness smoke tests, words written out bit by bit from 30_encoding.md R15, R48 and
R49, vectors of 95_test_vectors.md, and a witness for the hypotheses of each statement that has some. -/

namespace Sys2Proof.Tests

open Sys2Proof Sys2Proof.Machine Sys2Proof.Safety

/-- A state written as 95_test_vectors.md writes it: `PHASE t i f r c g`. -/
def st (p : Phase) (t : TickCount) (i : BitIndex) (f : Frame) (r c g : Bool) : State :=
  { State.reset with
    state := phaseCode p, ticks := t, index := i, frame := f, ready := r, completed := c, gate := g }

/-- The frame of the source's scenario (W1). -/
def F : Frame := 0xFD02EF00

/-- A deposited frame that waits for its pickup. -/
def pending : State := st .hm 0 0 F true true false

/-! Well-formedness: an ill-formed word for each check -/

theorem test_opDefined_refuses_reserved :
    EventWord.opDefined 0x400000000 = false ∧ EventWord.opDefined 0x300000000 = true := by decide

theorem test_dataDefined_refuses_nonzero :
    EventWord.dataDefined 0x2000000FF = false ∧ EventWord.dataDefined 0x1000000FF = true := by decide

theorem test_phaseDefined_refuses_code7 :
    PhaseCode.phaseDefined 7 = false ∧ PhaseCode.phaseDefined 6 = true := by decide

theorem test_wellFormed_refuses :
    TableWord.wellFormed (.event 0x7FFFFFFFF) = false ∧ TableWord.wellFormed (.event 0x000000001) = false
    ∧ TableWord.wellFormed (.phase 7) = false ∧ TableWord.wellFormed (.event 0x1FFFFFFFF) = true
    ∧ Instr.wellFormed (.deposit 0x12345678) = true := by decide

/-! Words written out from the encoding: op in bits 34:32, data in bits 31:0 -/

theorem test_decode_tick :
    decode (.event 0b000_00000000000000000000000000000000) = some .tick := by decide

theorem test_decode_deposit :
    decode (.event 0b001_11111101000000101110111100000000) = some (.deposit 0xFD02EF00) := by decide

theorem test_decode_status :
    decode (.event 0b010_00000000000000000000000000000000) = some .status := by decide

theorem test_decode_init :
    decode (.event 0b011_00000000000000000000000000000000) = some .init := by decide

theorem test_decode_reserved :
    decode (.event 0b100_00000000000000000000000000000000) = none
    ∧ decode (.event 0b010_00000000000000000000000011111111) = none := by decide

theorem test_decode_phases :
    decode (.phase 0b000) = some .phaseHm ∧ decode (.phase 0b001) = some .phaseHs
    ∧ decode (.phase 0b010) = some .phaseDm ∧ decode (.phase 0b011) = some .phaseDhs
    ∧ decode (.phase 0b100) = some .phaseDls ∧ decode (.phase 0b101) = some .phaseFm
    ∧ decode (.phase 0b110) = some .phaseFs ∧ decode (.phase 0b111) = none := by decide

theorem test_encode_deposit : encode (.deposit 0xFD02EF00) = .event 0x1FD02EF00 := by decide

theorem test_decodeTableWord :
    decodeTableWord 40 0x300000000 = some .init ∧ decodeTableWord 8 0x5 = some .phaseFm
    ∧ decodeTableWord 8 0x7 = none := by decide

/-! Vectors: TICK and the phases (95_test_vectors.md 2.3) -/

/-- T2. -/
theorem test_tick_pickup : after .tick pending = { st .hm 1 0 F false false true with rsp := some 0 } := by decide

/-- T22, with the 14 bits `{1, 1, 33}`. -/
theorem test_tick_corrupt :
    after .tick (st .hs 1 33 0 false false false)
      = { st .hs 1 33 0 false false false with faults := [.corruptState 0b001_00001_100001] } := by decide

/-- T4. -/
theorem test_hm_sixteenth_mark :
    registers (after .tick (st .hm 15 0 F false false true)) = registers (st .hm 16 0 F false false true) := by decide

/-- T5. -/
theorem test_hm_expires :
    registers (after .tick (st .hm 16 0 F false false true)) = registers (st .hs 1 0 F false false false) := by decide

/-- T6. -/
theorem test_hs_emits :
    registers (after .tick (st .hs 7 0 F false false false)) = registers (st .hs 8 0 F false false false) := by decide

/-- T7. -/
theorem test_hs_expires :
    registers (after .tick (st .hs 8 0 F false false false)) = registers (st .dm 1 0 F false false true) := by decide

/-- T9. -/
theorem test_dm_bit8_is_one :
    registers (after .tick (st .dm 1 8 F false false true)) = registers (st .dhs 1 9 F false false false) := by decide

/-- T11. -/
theorem test_dm_bit31_is_zero :
    registers (after .tick (st .dm 1 31 0x7FFFFFFF false false true))
      = registers (st .dls 1 32 0x7FFFFFFF false false false) := by decide

/-- T15. -/
theorem test_dhs_at_index_32 :
    registers (after .tick (st .dhs 3 32 F false false false)) = registers (st .fm 1 32 F false false true) := by decide

/-- T15' (FINAL_DM_EMITS = true). -/
theorem test_dhs_at_index_32_emitting :
    registers (after .tick { st .dhs 3 32 F false false false with finalDmEmits := true })
      = registers (st .dm 1 32 F false false true) := by decide

/-- T16. -/
theorem test_dls_expires :
    registers (after .tick (st .dls 1 1 F false false false)) = registers (st .dm 1 1 F false false true) := by decide

/-- T18. -/
theorem test_fm_expires :
    registers (after .tick (st .fm 1 32 F false false true)) = registers (st .fs 1 32 F false false false) := by decide

/-- T19. -/
theorem test_fs_completes :
    after .tick (st .fs 1 32 F false false false) = { State.reset with rsp := some 0 } := by decide

/-! Vectors: the host events (2.4 to 2.6, P5), assembly (2.1), one step -/

/-- V1 and V2. -/
theorem test_deposit_accepted_then_rejected :
    after (.deposit F) State.reset = { pending with rsp := some 1 }
    ∧ after (.deposit 0x12345678) pending = { pending with rsp := some 0 } := by decide

/-- V4. -/
theorem test_deposit_rejected_before_completion :
    after (.deposit 0x80000000) (st .fs 1 32 F false false false)
      = { st .fs 1 32 F false false false with rsp := some 0 } := by decide

/-- S1 to S3. -/
theorem test_status_words :
    (after .status State.reset).rsp = some 5 ∧ (after .status pending).rsp = some 3
    ∧ (after .status (st .hm 1 0 F false false true)).rsp = some 0 := by decide

/-- I1 and I4. -/
theorem test_init_keeps_faults :
    after .init { st .hs 4 0 0xFFFFFFFF false false false with faults := [.corruptState 7] }
      = { State.reset with faults := [.corruptState 7], rsp := some 0 } := by decide

/-- P5, step 1. -/
theorem test_reserved_word_is_recorded :
    step { State.reset with events := [0x400000000] }
      = .next { State.reset with faults := [.reservedEvent 0x400000000] } := rfl

/-- A1, A4 and A6. -/
theorem test_assemble :
    assemble 0xEF00 0x02 = 0xFD02EF00 ∧ assemble 0x1234 0x56 = 0xA9561234
    ∧ sendFrame 0x1EF00 0x102 = 0xFD02EF00 := by decide

/-! Witnesses: the hypotheses of a statement can be met together, and each clause of a phase step has its state: the
duration used up, an emission at the least and the greatest count, and the count 31 that 5 bits cannot follow -/

/-- A state at phase `p` whose `ticks` is `t`, well formed or not. -/
def counted (p : Phase) (t : TickCount) : State := st p t 0 F false false (lvl p)

/-- At `ticks = 31` every phase step that emits draws one free value and writes its gate (log entry 6). -/
theorem witness_emission_at_31 :
    ∀ p ∈ [Phase.hm, .hs, .dm, .dhs, .dls, .fm, .fs],
      (counted p 31).ticks = 31 ∧ (counted p 31).ticks ≠ dur p
      ∧ (after (phaseInstr p) (counted p 31)).draws = 1 ∧ (after (phaseInstr p) (counted p 31)).gate = lvl p
      ∧ (after (phaseInstr p) (counted p 31)).cont = false := by decide

/-- One below, it counts to 31 and draws none. -/
theorem witness_emission_at_30 :
    ∀ p ∈ [Phase.hm, .hs, .dm, .dhs, .dls, .fm, .fs],
      (counted p 30).ticks ≠ 31 ∧ (counted p 30).ticks ≠ dur p
      ∧ (after (phaseInstr p) (counted p 30)).ticks = 31 ∧ (after (phaseInstr p) (counted p 30)).draws = 0 := by decide

/-- At 0, the count of a phase just entered, it emits its first period. -/
theorem witness_emission_at_0 :
    ∀ p ∈ [Phase.hm, .hs, .dm, .dhs, .dls, .fm, .fs],
      (counted p 0).ticks ≠ 31 ∧ (counted p 0).ticks ≠ dur p
      ∧ (after (phaseInstr p) (counted p 0)).ticks = 1 ∧ (after (phaseInstr p) (counted p 0)).cont = false := by decide

/-- At its duration a timed phase step enters the next phase, and footer-space completes. -/
theorem witness_expiry_at_dur :
    (∀ p ∈ [Phase.hm, .hs, .dhs, .dls, .fm],
      (counted p (dur p)).ticks = dur p ∧ (after (phaseInstr p) (counted p (dur p))).cont = true)
    ∧ (counted .fs 1).ticks = 1 ∧ (after .phaseFs (counted .fs 1)).completed = true := by decide

/-- Data-mark at `index = 63`: the bit count draws one free value (log entry 6). -/
theorem witness_bit_count_at_63 :
    (st .dm 1 63 F false false true).index ≠ 32 ∧ (st .dm 1 63 F false false true).ticks = 1
    ∧ (after .phaseDm (st .dm 1 63 F false false true)).draws = 1 := by decide

theorem witness_DecodeInvertsEncode :
    Instr.wellFormed (.deposit F) = true ∧ decode (.event 0x1FD02EF00) = some (.deposit F) := by decide

theorem witness_StepRunsTheDecodedEvent :
    let s : State := { State.reset with events := [0x1FD02EF00, 0x000000000] }
    s.cont = false ∧ s.events = 0x1FD02EF00 :: [0x000000000]
    ∧ decode (.event 0x1FD02EF00) = some (.deposit F) := by decide

theorem witness_StepAppliesTheFreeEvent : State.reset.cont = false ∧ State.reset.events = [] := by decide

theorem witness_StepRunsThePhaseOfAnOpenCascade :
    let s : State := { st .dhs 3 32 F false false false with cont := true }
    s.cont = true ∧ s.state = phaseCode .dhs ∧ exec (phaseInstr .dhs) s = .next (after .phaseDhs s) :=
  ⟨rfl, rfl, rfl⟩

theorem witness_StepRunsThePlacedInstruction :
    decodeTableWord 40 0x200000000 = some .status ∧ 8 < 40
    ∧ decodeTableWord 9 0x0 = some .tick ∧ 8 < 9
    ∧ decodeTableWord 8 0x6 = some .phaseFs ∧ 8 ≤ 8 := by decide

theorem witness_ReservedWordRaisesReservedEvent :
    4 ≤ (0x400000000#35).toNat / 2 ^ 32
    ∧ ((0x000000001#35).toNat / 2 ^ 32 ≠ 1 ∧ (0x000000001#35).toNat % 2 ^ 32 ≠ 0)
    ∧ ((0x380000000#35).toNat / 2 ^ 32 ≠ 1 ∧ (0x380000000#35).toNat % 2 ^ 32 ≠ 0) := by decide

/-- The hypotheses inside `raisesReserved`. -/
theorem witness_raisesReserved :
    let s : State := { State.reset with events := [0x400000000] }
    s.cont = false ∧ s.events = 0x400000000 :: [] := by decide

theorem witness_PhaseStepsRefineTick :
    wf (st .dls 1 32 F false false false) = true ∧ (st .dls 1 32 F false false false).completed = false
    ∧ wf pending = true ∧ pending.ready = true := by decide

theorem witness_InitResult :
    (0x300000000#35).toNat / 2 ^ 32 = 3 ∧ (0x300000000#35).toNat % 2 ^ 32 = 0
    ∧ (0x380000000#35).toNat / 2 ^ 32 = 3 ∧ (0x380000000#35).toNat % 2 ^ 32 ≠ 0 := by decide

theorem witness_DepositResult :
    (0x1FFFFFFFF#35).toNat = 2 ^ 32 + (0xFFFFFFFF#32).toNat
    ∧ (State.reset.completed = true ∧ State.reset.ready = false)
    ∧ ¬(pending.completed = true ∧ pending.ready = false)
    ∧ ¬((st .hm 1 0 F false false true).completed = true ∧ (st .hm 1 0 F false false true).ready = false) := by decide

theorem witness_StatusResult :
    (0x200000000#35).toNat / 2 ^ 32 = 2 ∧ (0x200000000#35).toNat % 2 ^ 32 = 0
    ∧ (0x2000000FF#35).toNat / 2 ^ 32 = 2 ∧ (0x2000000FF#35).toNat % 2 ^ 32 ≠ 0
    ∧ inv pending = true := by decide

theorem witness_SideEffectsOfEvents :
    idle State.reset = true ∧ wf pending = true ∧ pending.ready = true
    ∧ wf (st .fs 1 32 F false false false) = true ∧ (st .fs 1 32 F false false false).completed = false := by decide

theorem witness_HostAccessRights :
    agentOf (.deposit F) = some .host ∧ agentOf .status = some .host
    ∧ State.reset.completed = (st .hm 0 0 F false true false).completed
    ∧ State.reset.ready = (st .hm 0 0 F false true false).ready := by decide

theorem witness_TickRaisesCorruptState :
    ({ State.reset with state := 7 } : State).state = 7
    ∧ ((st .dm 2 3 0 false false false).state = phaseCode .dm ∧ dur .dm < (st .dm 2 3 0 false false false).ticks)
    ∧ 32 < (st .hs 1 33 0 false false false).index := by decide

theorem witness_IdleTickWritesNothing :
    wf State.reset = true ∧ State.reset.ready = false ∧ State.reset.completed = true ∧ inv State.reset = true := by
  decide

theorem witness_PickupStartsTheHeaderMark : wf pending = true ∧ pending.ready = true ∧ inv pending = true := by decide

theorem witness_HeaderMarkStep :
    (∀ s ∈ [st .hm 1 0 F false false true, st .hm 15 0 F false false true, st .hm 16 0 F false false true],
      inv s = true ∧ s.completed = false ∧ s.state = 0b000) := by decide

theorem witness_HeaderSpaceStep :
    (∀ s ∈ [st .hs 1 0 F false false false, st .hs 7 0 F false false false, st .hs 8 0 F false false false],
      inv s = true ∧ s.completed = false ∧ s.state = 0b001) := by decide

theorem witness_DataMarkStep :
    ((st .dm 0 32 F false false true).index = 32 ∧ (st .dm 0 32 F false false true).finalDmEmits = false)
    ∧ ((st .dm 1 31 F false false true).index ≠ 32 ∧ (st .dm 1 31 F false false true).ticks = 1)
    ∧ ((st .dm 0 9 F false false true).index ≠ 32 ∧ (st .dm 0 9 F false false true).ticks ≠ 1) := by decide

theorem witness_TickLeavesDataMark :
    (∀ s ∈ [st .dm 1 31 F false false true, st .dm 1 0 F false false true,
        { st .dm 1 32 F false false true with finalDmEmits := true }],
      inv s = true ∧ s.completed = false ∧ s.state = 0b010)
    ∧ F.getLsbD 31 = true ∧ F.getLsbD 0 = false := by decide

theorem witness_DataHighSpaceStep :
    (∀ s ∈ [st .dhs 1 9 F false false false, st .dhs 2 9 F false false false, st .dhs 3 9 F false false false,
        st .dhs 3 32 F false false false, { st .dhs 3 32 F false false false with finalDmEmits := true }],
      inv s = true ∧ s.completed = false ∧ s.state = 0b011) := by decide

theorem witness_DataLowSpaceStep :
    (∀ s ∈ [st .dls 1 1 F false false false, st .dls 1 32 0x7FFFFFFF false false false,
        { st .dls 1 32 0x7FFFFFFF false false false with finalDmEmits := true }],
      inv s = true ∧ s.completed = false ∧ s.state = 0b100) := by decide

theorem witness_FooterMarkStep :
    let s := st .fm 1 32 F false false true
    inv s = true ∧ s.completed = false ∧ s.state = 0b101 := by decide

theorem witness_FooterSpaceStep :
    let s := st .fs 1 32 F false false false
    inv s = true ∧ s.completed = false ∧ s.state = 0b110 := by decide

theorem witness_CompletionEqualsInit :
    let s := st .fs 1 32 F false false false
    inv s = true ∧ s.completed = false ∧ s.state = 0b110 := by decide

theorem witness_LastLowBitCascadesInOneTick :
    let s := st .dm 1 31 0x7FFFFFFF false false true
    wf s = true ∧ s.ready = false ∧ s.completed = false ∧ s.state = phaseCode .dm ∧ s.index = 31 ∧ s.ticks = 1
      ∧ s.frame.getLsbD 31 = false := by decide

theorem witness_TickFrame :
    exec .tick pending = .next (after .tick pending) ∧ wf (st .hs 1 33 0 false false false) = false
    ∧ wf pending = true ∧ State.reset.ready = false ∧ State.reset.completed = true := ⟨rfl, by decide⟩

theorem witness_PhaseStepFrame :
    let s := st .fs 1 32 F false false false
    let d := st .dm 1 31 F false false true
    exec (phaseInstr .fs) s = .next (after .phaseFs s) ∧ s.ticks = 1
    ∧ exec (phaseInstr .dm) d = .next (after .phaseDm d) ∧ (after .phaseDm d).cont = true
    ∧ d.ticks ≠ 31 ∧ d.index ≠ 63 := ⟨rfl, rfl, rfl, by decide⟩

theorem witness_FrameIsHeldInFlight :
    (st .fs 1 32 F false false false).completed = false ∧ agentOf .tick = some .envelopeClock
    ∧ Instr.tick ≠ .init := by decide

theorem witness_StepKeepsTheInvariants :
    let s : State := { pending with events := [0x000000000] }
    inv s = true ∧ step s = .next { st .hm 1 0 F false false true with rsp := some 0 } := ⟨by decide, rfl⟩

theorem witness_InvariantsGiveWellFormedness : inv (st .dhs 3 32 F false false false) = true := by decide

theorem witness_ReachableStatesMeetTheInvariants :
    Reachable { pending with rsp := some 1 } :=
  .step (start false [0x1FD02EF00] 0) _ (.reset false [0x1FD02EF00] 0) rfl

theorem witness_InvariantsExcludeCorruptState :
    let s : State := { State.reset with events := [0x400000000] }
    inv s = true ∧ step s = .next { State.reset with faults := [.reservedEvent 0x400000000] } := ⟨by decide, rfl⟩

theorem witness_RaiseAppendsAndGoesOn :
    step { st .hs 1 33 0 false false false with events := [0x000000000] }
      = .next { st .hs 1 33 0 false false false with faults := [.corruptState 0b001_00001_100001] } := rfl

theorem witness_ParameterIsNeverWritten :
    step { State.reset with finalDmEmits := true, events := [0x300000000] }
      = .next { State.reset with finalDmEmits := true, rsp := some 0 } := rfl

theorem witness_FrameProducesItsPulseTrain :
    inv pending = true ∧ pending.ready = true
    ∧ inv { pending with finalDmEmits := true } = true := by decide

theorem witness_FrameCompletesAtItsTick :
    inv pending = true ∧ pending.ready = true ∧ 1 ≤ 120 ∧ 120 ≤ emissions pending.finalDmEmits pending.frame := by
  decide

theorem witness_CascadeWorkIsBounded :
    let s := st .dhs 3 32 F false false false
    inv s = true ∧ transitions 3 s = 2 ∧ s.state ≠ 7 := by decide

theorem witness_HostEventsNeverDisturbAFrame :
    let l : List Instr := [.deposit 3, .tick, .status, .tick]
    inv pending = true ∧ pending.ready = true ∧ (∀ i ∈ l, i = .tick ∨ agentOf i = some .host)
    ∧ l.countP (fun i => decide (i = .tick)) ≤ emissions pending.finalDmEmits pending.frame := by decide

theorem witness_BackToBackFramesNeverInterleave :
    inv pending = true ∧ pending.ready = true ∧ 0 ≤ emissions pending.finalDmEmits pending.frame := by decide

theorem witness_PinFollowsTheGate :
    (st .hm 1 0 F false false true).gate = true ∧ State.reset.gate = false := by decide

theorem witness_SendReturnsOnAcceptance :
    idle (afterAll [.status] State.reset) = true ∧ idle (afterAll [.tick] pending) = false
    ∧ runTask (sendTask (0xEF00#16).toNat (0x02#8).toNat) [[]] State.reset
        = (true, { pending with rsp := some 1 }) := ⟨by decide, by decide, rfl⟩

theorem witness_WaitIdleReturnsWhenIdle :
    idle (afterAll [.tick] State.reset) = true ∧ idle (afterAll [] pending) = false := by decide

theorem witness_StoppedHeartbeatSpinsForEver :
    let l : List (List Instr) := [[.status], [.deposit 3]]
    pending.ready = true ∧ (∀ others ∈ l, ∀ i ∈ others, agentOf i = some .host) := by decide

theorem witness_SendWaitsExactlyOneFrame : inv pending = true ∧ pending.ready = true := by decide

end Sys2Proof.Tests
end

section
/-! Rules for one instruction and one step: the phase steps by cases, a step with no cascade open, totality, and that
nothing writes the parameter FINAL_DM_EMITS. -/

namespace Sys2Proof.Machine

/-- An instruction is one of the four events or the step of a phase (R49, R58). -/
theorem instr_cases (i : Instr) :
    i = .tick ∨ (∃ f, i = .deposit f) ∨ i = .status ∨ i = .init ∨ ∃ p, i = phaseInstr p := by
  cases i with
  | tick => exact .inl rfl
  | deposit f => exact .inr (.inl ⟨f, rfl⟩)
  | status => exact .inr (.inr (.inl rfl))
  | init => exact .inr (.inr (.inr (.inl rfl)))
  | phaseHm => exact .inr (.inr (.inr (.inr ⟨.hm, rfl⟩)))
  | phaseHs => exact .inr (.inr (.inr (.inr ⟨.hs, rfl⟩)))
  | phaseDm => exact .inr (.inr (.inr (.inr ⟨.dm, rfl⟩)))
  | phaseDhs => exact .inr (.inr (.inr (.inr ⟨.dhs, rfl⟩)))
  | phaseDls => exact .inr (.inr (.inr (.inr ⟨.dls, rfl⟩)))
  | phaseFm => exact .inr (.inr (.inr (.inr ⟨.fm, rfl⟩)))
  | phaseFs => exact .inr (.inr (.inr (.inr ⟨.fs, rfl⟩)))

@[simp] theorem after_phaseInstr (p : Phase) (s : State) : after (phaseInstr p) s = phaseStep p s := by
  simp [after, exec_phaseInstr]

/-- A phase step that only counts its duration emits, or enters the phase that follows (R67, R68, R70 to R72). -/
theorem phaseStep_cases_of_timed (p q : Phase) (s : State) (h : phaseStep p s = timedStep p q s) :
    (s.ticks ≠ dur p ∧ phaseStep p s = emit p s) ∨ ∃ q, phaseStep p s = enter q s := by
  rcases timedStep_cases p q s with ⟨-, hq⟩ | ⟨ht, hp⟩
  · exact .inr ⟨q, h.trans hq⟩
  · exact .inl ⟨ht, h.trans hp⟩

/-- Everything a phase step can do (R67 to R73): emit, enter another phase, count the bit it reads and enter that bit's
data space, or complete the frame. -/
theorem phaseStep_cases (p : Phase) (s : State) :
    (s.ticks ≠ dur p ∧ phaseStep p s = emit p s)
    ∨ (p ≠ .fs ∧ ∃ q, phaseStep p s = enter q s)
    ∨ (p = .dm ∧ s.ticks = 1#5 ∧ s.index ≠ 32#6
        ∧ phaseStep p s = enter (if frameBit s.frame s.index then .dhs else .dls) (countBit s))
    ∨ (p = .fs ∧ s.ticks = 1#5 ∧ phaseStep p s = complete s) := by
  cases p with
  | hm => exact (phaseStep_cases_of_timed .hm .hs s rfl).imp_right fun h => .inl ⟨nofun, h⟩
  | hs => exact (phaseStep_cases_of_timed .hs .dm s rfl).imp_right fun h => .inl ⟨nofun, h⟩
  | dm =>
    simp only [phaseStep, stepDm]
    split
    · exact .inr (.inl ⟨nofun, .fm, rfl⟩)
    next hend =>
      split
      next ht =>
        have hi : s.index ≠ 32#6 := fun hi => hend ⟨hi, .inr ht⟩
        refine .inr (.inr (.inl ⟨trivial, ht, hi, ?_⟩))
        split <;> rfl
      next ht => exact .inl ⟨ht, rfl⟩
  | dhs => exact (phaseStep_cases_of_timed .dhs .dm s rfl).imp_right fun h => .inl ⟨nofun, h⟩
  | dls => exact (phaseStep_cases_of_timed .dls .dm s rfl).imp_right fun h => .inl ⟨nofun, h⟩
  | fm => exact (phaseStep_cases_of_timed .fm .fs s rfl).imp_right fun h => .inl ⟨nofun, h⟩
  | fs =>
    simp only [phaseStep, stepFs]
    split
    next ht => exact .inr (.inr (.inr ⟨trivial, ht, rfl⟩))
    next ht => exact .inl ⟨ht, rfl⟩

/-! One step with no cascade open -/

theorem step_eq_stepEvent (s : State) (h : s.cont = false) : step s = stepEvent s := by
  simp [step, h]

/-- Where no cascade is open a raise leaves `cont` too (R92). -/
theorem raise_of_not_cont (e : Fault) (s : State) (h : s.cont = false) :
    raise e s = { s with faults := s.faults ++ [e], rsp := none } := by
  simp [raise, h]

theorem applyWord_of_some (ev : EventWord) (i : Instr) (s : State) (h : decode (.event ev) = some i) :
    applyWord ev s = exec i s := by
  simp [applyWord, h]

theorem applyWord_of_none (ev : EventWord) (s : State) (h : decode (.event ev) = none) :
    applyWord ev s = .next (raise (.reservedEvent ev) s) := by
  simp [applyWord, h]

theorem stepEvent_of_some (ev : EventWord) (s : State) (h : arrival s = some ev) :
    stepEvent s = applyWord ev (afterArrival s) := by
  simp [stepEvent, h]

theorem stepEvent_of_none (s : State) (h : arrival s = none) : stepEvent s = .next (afterArrival s) := by
  simp [stepEvent, h]

/-! Totality of a step -/

/-- In every state, with a cascade open or not, a step answers a next state (R12, R92). -/
theorem step_next (s : State) : ∃ t, step s = .next t := by
  cases hc : s.cont with
  | false =>
    obtain ⟨_, i, _, _, h⟩ | ⟨ev, _, _, h⟩ | ⟨_, h⟩ := step_cases s hc
    · exact ⟨after i (afterArrival s), h⟩
    · exact ⟨raise (.reservedEvent ev) (afterArrival s), h⟩
    · exact ⟨afterArrival s, h⟩
  | true =>
    obtain ⟨_, _, h⟩ | ⟨_, h⟩ := step_cascade_cases s hc
    · exact ⟨_, h⟩
    · exact ⟨_, h⟩

/-! The parameter FINAL_DM_EMITS (R7) -/

@[simp] theorem phaseStep_finalDmEmits (p : Phase) (s : State) :
    (phaseStep p s).finalDmEmits = s.finalDmEmits := by
  obtain ⟨_, h⟩ | ⟨_, _, h⟩ | ⟨_, _, _, h⟩ | ⟨_, _, h⟩ := phaseStep_cases p s
  · rw [h, emit_finalDmEmits]
  · rw [h, enter_finalDmEmits]
  · rw [h, enter_finalDmEmits, countBit_finalDmEmits]
  · rw [h, complete_finalDmEmits]

@[simp] theorem cascade_finalDmEmits (n : Nat) (s : State) : (cascade n s).finalDmEmits = s.finalDmEmits := by
  induction n generalizing s with
  | zero => rfl
  | succ n ih =>
    unfold cascade
    cases phaseOfCode s.state with
    | none => rfl
    | some p =>
      dsimp only
      split
      · rw [ih, phaseStep_finalDmEmits]
      · exact phaseStep_finalDmEmits p s

/-- Everything a TICK can leave behind: `execTick_cases` for `after`. -/
theorem after_tick_cases (s : State) :
    (wf s = false ∧ after .tick s = raise (.corruptState (corruptInfo s)) s)
    ∨ (wf s = true ∧ s.ready = false ∧ s.completed = true ∧ after .tick s = respond 0#32 s)
    ∨ (wf s = true ∧ (s.ready = true ∨ s.completed = false)
        ∧ after .tick s = respond 0#32 (cascade cascadeBound (pickup s))) := by
  simpa only [← exec_eq_next_iff, exec] using execTick_cases s

@[simp] theorem after_finalDmEmits (i : Instr) (s : State) : (after i s).finalDmEmits = s.finalDmEmits := by
  obtain rfl | ⟨f, rfl⟩ | rfl | rfl | ⟨p, rfl⟩ := instr_cases i
  · obtain ⟨_, h⟩ | ⟨_, _, _, h⟩ | ⟨_, _, h⟩ := after_tick_cases s
    · rw [h, raise_finalDmEmits]
    · rw [h, respond_finalDmEmits]
    · rw [h, respond_finalDmEmits, cascade_finalDmEmits, pickup_finalDmEmits]
  · rw [after_deposit]
    split <;> rfl
  · rfl
  · rfl
  · rw [after_phaseInstr, phaseStep_finalDmEmits]

/-- No step writes the parameter, whatever event arrives and with a cascade open or not (R7). -/
theorem step_finalDmEmits (s t : State) (h : step s = .next t) : t.finalDmEmits = s.finalDmEmits := by
  cases hc : s.cont with
  | false =>
    obtain ⟨_, i, _, _, h'⟩ | ⟨_, _, _, h'⟩ | ⟨_, h'⟩ := step_cases s hc
    all_goals
      cases h.symm.trans h'
      simp only [after_finalDmEmits, raise_finalDmEmits, afterArrival_finalDmEmits]
  | true =>
    obtain ⟨p, _, h'⟩ | ⟨_, h'⟩ := step_cascade_cases s hc
    · cases h.symm.trans h'
      split <;> simp only [respond_finalDmEmits, phaseStep_finalDmEmits]
    · cases h.symm.trans h'
      exact raise_finalDmEmits _ s

/-! The obligations -/

/-- Settles O10: `exec_next`, case by case over the instructions. -/
theorem everyInstructionAnswersNext : Obligations.EveryInstructionAnswersNext :=
  exec_next

/-- Settles O11: each case of a step, inside a cascade and outside, ends in a next state. -/
theorem everyStepAnswersNext : Obligations.EveryStepAnswersNext :=
  step_next

/-- Settles O6: with no event listed the arriving word is the free one, and applying it goes by what the decoder reads. -/
theorem stepAppliesTheFreeEvent : Obligations.StepAppliesTheFreeEvent := by
  intro s hc he
  obtain ⟨harrival, hafter⟩ := arrival_nil s he
  rw [step_eq_stepEvent s hc]
  cases hev : Config.nextEvent s.draws with
  | none => rw [stepEvent_of_none s (harrival.trans hev), hafter]
  | some ev =>
    rw [stepEvent_of_some ev s (harrival.trans hev), hafter]
    cases hd : decode (.event ev) with
    | some i => simp only [hd, applyWord_of_some ev i _ hd]
    | none => simp only [hd, applyWord_of_none ev _ hd, raise_of_not_cont _ { s with draws := s.draws + 1 } hc]

/-- Settles O42: the parameter is kept by each phase step, so by the cascade, by every event, and by a step. -/
theorem parameterIsNeverWritten : Obligations.ParameterIsNeverWritten :=
  step_finalDmEmits

end Sys2Proof.Machine
end

section
/-! The invariants INV1 to INV4 (10_state.md R30 to R33) from event to event: what each event does to them, what a cascade
keeps between two of its phase steps, and that every step keeps them. -/

namespace Sys2Proof.Machine

open Sys2Proof.Safety

/-! What the invariants read -/

/-- The invariants read the registers, the parameter and the open-cascade flag, and nothing else. -/
theorem inv_of_registers_eq {s t : State} (h : inv s = true) (hr : registers t = registers s)
    (hf : t.finalDmEmits = s.finalDmEmits) (hc : t.cont = false) : inv t = true := by
  cases s
  cases t
  simp only [registers, Registers.mk.injEq] at hr hf hc
  obtain ⟨rfl, rfl, rfl, rfl, rfl, rfl, rfl⟩ := hr
  subst hf hc
  simp only [inv, Bool.and_eq_true] at h ⊢
  exact ⟨h.1, rfl⟩

theorem cont_of_inv {s : State} (h : inv s = true) : s.cont = false := by
  simp only [inv, Bool.and_eq_true, Bool.not_eq_true'] at h
  exact h.2

theorem inv_respond {s : State} (v : Word) (h : inv s = true) : inv (respond v s) = true :=
  inv_of_registers_eq h rfl rfl rfl

theorem inv_raise {s : State} (e : Fault) (h : inv s = true) : inv (raise e s) = true :=
  inv_of_registers_eq h rfl rfl rfl

theorem inv_afterArrival {s : State} (h : inv s = true) : inv (afterArrival s) = true :=
  inv_of_registers_eq h (by simp [registers]) (by simp) (by simp [cont_of_inv h])

theorem InFlight.inv_eq {p : Phase} {s : State} (h : InFlight p s) : inv s = true :=
  (inv_of_not_completed s h.completed_eq).2 ⟨p, h⟩

/-- A count of 0 is within every phase's duration. -/
theorem zero_le_dur (p : Phase) : 0#5 ≤ dur p := BitVec.le_of_lt (dur_pos p)

/-! Between two phase steps of one cascade -/

/-- What holds of a block inside the cascade of a TICK, before the step of phase `p`: the invariants of a block in
flight, but that a phase just entered has emitted nothing yet and has not written its gate, and that data-mark may be
met at the end of the data whatever FINAL_DM_EMITS says (R66, R69). -/
structure InCascade (p : Phase) (s : State) : Prop where
  state_eq : s.state = phaseCode p
  ready_eq : s.ready = false
  completed_eq : s.completed = false
  le_dur : s.ticks ≤ dur p
  gate_eq : s.ticks ≠ 0#5 → s.gate = lvl p
  index_le : s.index ≤ 32#6
  index_fits : p ≠ .dm → indexFits p s = true

theorem InFlight.inCascade {p : Phase} {s : State} (h : InFlight p s) : InCascade p s :=
  ⟨h.state_eq, h.ready_eq, h.completed_eq, h.le_dur, fun _ => h.gate_eq, h.index_le, fun _ => h.index_fits⟩

/-- A pickup under the invariants stands at the start of header-mark (R31, R63). -/
theorem inCascade_pickup {s : State} (h : inv s = true) (hr : s.ready = true) : InCascade .hm (pickup s) := by
  have hc : s.completed = true := by
    by_contra hc
    obtain ⟨p, hp⟩ := (inv_of_not_completed s (by simpa using hc)).1 h
    simp [hp.ready_eq] at hr
  obtain ⟨hs, ht, hi, -, -⟩ := (inv_of_completed s hc).1 h
  have hle : (pickup s).ticks ≤ dur .hm := by
    rw [pickup_ticks, ht]
    exact zero_le_dur .hm
  refine ⟨?_, ?_, ?_, hle, ?_, ?_, ?_⟩ <;> simp [hs, ht, hi, hr, indexFits]

@[simp] theorem indexFits_emit (p q : Phase) (s : State) : indexFits p (emit q s) = indexFits p s := by
  cases p <;> rfl

@[simp] theorem indexFits_enter (p q : Phase) (s : State) : indexFits p (enter q s) = indexFits p s := by
  cases p <;> rfl

/-- An emission within the phase's duration brings the block back to the invariants (R66). -/
theorem InCascade.inFlight_emit {p : Phase} {s : State} (h : InCascade p s) (ht : s.ticks ≠ dur p)
    (hi : indexFits p s = true) : InFlight p (emit p s) := by
  have hd := dur_lt p
  have hle := h.le_dur
  refine ⟨h.state_eq, h.ready_eq, h.completed_eq, ?_, ?_, rfl, by rwa [indexFits_emit], rfl⟩
  all_goals
    rw [emit_ticks, nextTicks_of_le s p hle]
    bv_omega

/-- A transition leaves the block standing at the phase it enters, where the index fits that phase (R66). -/
theorem InCascade.inCascade_enter {p q : Phase} {s : State} (h : InCascade p s)
    (hi : q ≠ .dm → indexFits q s = true) : InCascade q (enter q s) :=
  ⟨rfl, h.ready_eq, h.completed_eq, zero_le_dur _, fun h0 => absurd rfl h0, h.index_le, by rwa [indexFits_enter]⟩

/-- How a phase step leaves the block: the cascade goes on at another phase, or the invariants hold again. -/
def GoesOnOrInv (t : State) : Prop := (t.cont = true ∧ ∃ q, InCascade q t) ∨ inv t = true

/-- A phase step that only counts its duration (R67, R68, R70 to R72). -/
theorem InCascade.goesOnOrInv_timedStep {p q : Phase} {s : State} (h : InCascade p s) (hp : p ≠ .dm)
    (hi : indexFits p s = true → q ≠ .dm → indexFits q s = true) : GoesOnOrInv (timedStep p q s) := by
  have hfits := h.index_fits hp
  rcases timedStep_cases p q s with ⟨-, he⟩ | ⟨ht, he⟩
  · rw [he]
    exact .inl ⟨rfl, q, h.inCascade_enter (hi hfits)⟩
  · rw [he]
    exact .inr (h.inFlight_emit ht hfits).inv_eq

/-- A counted bit leads to the data space of its value (R33, R69). -/
theorem InCascade.inCascade_enter_countBit {s : State} (h : InCascade .dm s) (hi : s.index ≠ 32#6) :
    InCascade (if frameBit s.frame s.index then .dhs else .dls)
      (enter (if frameBit s.frame s.index then .dhs else .dls) (countBit s)) := by
  have hle := h.index_le
  have hnext : nextIndex s = s.index + 1#6 := nextIndex_of_le s hle
  have hone : 1#6 ≤ s.index + 1#6 := by bv_omega
  have hmax : s.index + 1#6 ≤ 32#6 := by bv_omega
  refine ⟨rfl, h.ready_eq, h.completed_eq, zero_le_dur _, fun h0 => absurd rfl h0, ?_, fun _ => ?_⟩
  · rwa [enter_index, countBit_index, hnext]
  · cases hb : frameBit s.frame s.index <;> simp [indexFits, hnext, hone, hmax, hb]

/-- The step of data-mark (R69). -/
theorem InCascade.goesOnOrInv_stepDm {s : State} (h : InCascade .dm s) : GoesOnOrInv (stepDm s) := by
  have hle := h.index_le
  unfold stepDm
  split
  next hend => exact .inl ⟨rfl, .fm, h.inCascade_enter fun _ => by simp [indexFits, hend.1]⟩
  next hend =>
    split
    next ht =>
      have hbit := h.inCascade_enter_countBit fun hi => hend ⟨hi, .inr ht⟩
      rw [← apply_ite (fun q => enter q (countBit s))]
      exact .inl ⟨rfl, _, hbit⟩
    next ht =>
      have hfits : indexFits .dm s = true := by
        by_cases hi : s.index = 32#6
        · have hemits : s.finalDmEmits = true := by simpa using fun hf => hend ⟨hi, .inl hf⟩
          simp [indexFits, hi, hemits]
        · have : s.index ≤ 31#6 := by bv_omega
          simp [indexFits, this]
      exact .inr (h.inFlight_emit ht hfits).inv_eq

/-- The step of footer-space: the completion tick leaves the reset configuration, the gate low as footer-space had it
(R31, R73). -/
theorem InCascade.goesOnOrInv_stepFs {s : State} (h : InCascade .fs s) : GoesOnOrInv (stepFs s) := by
  unfold stepFs
  split
  next ht =>
    have hg : s.gate = false := h.gate_eq (by simp [ht])
    exact .inr ((inv_of_completed _ rfl).2 ⟨rfl, rfl, rfl, hg, rfl⟩)
  next ht => exact .inr (h.inFlight_emit ht (h.index_fits nofun)).inv_eq

/-- Each phase step of a cascade hands over to the next phase, or ends the cascade with the invariants met. -/
theorem InCascade.goesOnOrInv_phaseStep {p : Phase} {s : State} (h : InCascade p s) : GoesOnOrInv (phaseStep p s) := by
  cases p with
  | hm => exact h.goesOnOrInv_timedStep (q := .hs) nofun fun hi _ => hi
  | hs => exact h.goesOnOrInv_timedStep (q := .dm) nofun fun _ hq => absurd rfl hq
  | dm => exact h.goesOnOrInv_stepDm
  | dhs => exact h.goesOnOrInv_timedStep (q := .dm) nofun fun _ hq => absurd rfl hq
  | dls => exact h.goesOnOrInv_timedStep (q := .dm) nofun fun _ hq => absurd rfl hq
  | fm => exact h.goesOnOrInv_timedStep (q := .fs) nofun fun hi _ => hi
  | fs => exact h.goesOnOrInv_stepFs

/-- A cascade that ends meets the invariants again. -/
theorem InCascade.inv_cascade {p : Phase} {s : State} (n : Nat) (h : InCascade p s)
    (hdone : (cascade (n + 1) s).cont = false) : inv (cascade (n + 1) s) = true := by
  induction n generalizing p s with
  | zero =>
    rw [cascade_succ 0 p s h.state_eq, cascade, ite_self] at hdone ⊢
    obtain ⟨hc, -⟩ | hi := h.goesOnOrInv_phaseStep
    · simp [hc] at hdone
    · exact hi
  | succ n ih =>
    rw [cascade_succ (n + 1) p s h.state_eq] at hdone ⊢
    obtain ⟨hc, q, hq⟩ | hi := h.goesOnOrInv_phaseStep
    · rw [if_pos hc] at hdone ⊢
      exact ih hq hdone
    · simpa [cont_of_inv hi] using hi

/-! The four events and one step -/

/-- A TICK from a state that meets the invariants: the block at rest, or one whole cascade (R62). -/
theorem inv_after_tick {s : State} (h : inv s = true) : inv (after .tick s) = true := by
  obtain ⟨-, ht⟩ | ⟨-, -, -, ht⟩ | ⟨-, hbusy, ht⟩ := after_tick_cases s
  · exact ht ▸ inv_raise _ h
  · exact ht ▸ inv_respond _ h
  · have hcascade : ∃ p, InCascade p (pickup s) := by
      cases hr : s.ready with
      | true => exact ⟨.hm, inCascade_pickup h hr⟩
      | false =>
        obtain ⟨p, hp⟩ := (inv_of_not_completed s (by simpa [hr] using hbusy)).1 h
        exact ⟨p, by rw [pickup_of_not_ready s hr]; exact hp.inCascade⟩
    obtain ⟨p, hp⟩ := hcascade
    exact ht ▸ inv_respond _ (hp.inv_cascade 2 (cascade_done _ p hp.state_eq))

/-- A DEPOSIT writes `frame` and `ready` only in an idle block, whose configuration the invariants leave free of both
(R31, R81). -/
theorem inv_after_deposit {s : State} (f : Frame) (h : inv s = true) : inv (after (.deposit f) s) = true := by
  rw [after_deposit]
  split
  next hidle =>
    have hc := ((idle_iff s).1 hidle).1
    obtain ⟨hs, ht, hi, hg, -⟩ := (inv_of_completed s hc).1 h
    exact (inv_of_completed (respond 1#32 { s with frame := f, ready := true }) hc).2 ⟨hs, ht, hi, hg, rfl⟩
  next => exact inv_respond _ h

/-- INIT leaves the invariants met, from every state (R31, R83). -/
theorem inv_after_init (s : State) : inv (after .init s) = true :=
  (inv_of_completed _ rfl).2 ⟨rfl, rfl, rfl, rfl, rfl⟩

/-- No event leads out of the invariants. -/
theorem inv_after_of_decode {s : State} {ev : EventWord} {i : Instr} (hd : decode (.event ev) = some i)
    (h : inv s = true) : inv (after i s) = true := by
  obtain rfl | ⟨f, rfl⟩ | rfl | rfl := decode_event ev i hd
  · exact inv_after_tick h
  · exact inv_after_deposit f h
  · exact inv_respond _ h
  · exact inv_after_init s

theorem inv_step {s t : State} (h : inv s = true) (hstep : step s = .next t) : inv t = true := by
  have ha := inv_afterArrival h
  obtain ⟨ev, i, -, hd, h'⟩ | ⟨ev, -, -, h'⟩ | ⟨-, h'⟩ := step_cases s (cont_of_inv h)
  all_goals cases hstep.symm.trans h'
  · exact inv_after_of_decode hd ha
  · exact inv_raise _ ha
  · exact ha

/-! Reset and the states that runs from it come to -/

theorem inv_start (b : Bool) (l : List EventWord) (n : Nat) : inv (start b l n) = true :=
  (inv_of_completed _ rfl).2 ⟨rfl, rfl, rfl, rfl, rfl⟩

theorem inv_of_reachable {s : State} (h : Reachable s) : inv s = true := by
  induction h with
  | reset b l n => exact inv_start b l n
  | step s t _ hstep ih => exact inv_step ih hstep

/-- Under the invariants the block is at rest, or in flight at some phase (R31, R32). -/
theorem rest_or_inFlight_of_inv {s : State} (h : inv s = true) :
    (s.completed = true ∧ s.state = phaseCode .hm ∧ s.ticks = 0#5 ∧ s.index = 0#6 ∧ s.gate = false)
    ∨ ∃ p, InFlight p s := by
  cases hc : s.completed with
  | false => exact .inr ((inv_of_not_completed s hc).1 h)
  | true =>
    obtain ⟨hs, ht, hi, hg, -⟩ := (inv_of_completed s hc).1 h
    exact .inl ⟨rfl, hs, ht, hi, hg⟩

theorem wf_of_inv {s : State} (h : inv s = true) : wf s = true := by
  obtain ⟨-, hs, ht, hi, -⟩ | ⟨p, hp⟩ := rest_or_inFlight_of_inv h
  · exact (wf_iff s).2 ⟨.hm, hs, ht ▸ zero_le_dur .hm, by simp [hi]⟩
  · exact hp.wf_eq

/-! The obligations -/

/-- Settles O36: the arriving event's step, where a TICK goes through `InCascade` from one phase step to the next. -/
theorem stepKeepsTheInvariants : Obligations.StepKeepsTheInvariants :=
  fun _ _ => inv_step

/-- Settles O37: `wf_of_inv`, at rest and in flight. -/
theorem invariantsGiveWellFormedness : Obligations.InvariantsGiveWellFormedness :=
  fun _ => wf_of_inv

/-- Settles O38: induction over the run (`inv_of_reachable`), then what the invariants say at rest and in flight. -/
theorem reachableStatesMeetTheInvariants : Obligations.ReachableStatesMeetTheInvariants := by
  intro s hs
  obtain ⟨hc, hrest⟩ | ⟨p, hp⟩ := rest_or_inFlight_of_inv (inv_of_reachable hs)
  · exact ⟨fun _ => hc, fun _ => hrest, fun h => by simp [hc] at h⟩
  · have hcode : s.state ≠ 7 := by
      rw [hp.state_eq]
      cases p <;> decide
    exact ⟨fun h => by simp [hp.ready_eq] at h, fun h => by simp [hp.completed_eq] at h,
      fun _ => ⟨hcode, p, hp.state_eq, hp.one_le, hp.le_dur, hp.gate_eq⟩⟩

/-- Settles O35: the reset configuration is that of a block at rest, whatever the schedule and the parameter. -/
theorem invariantAtReset : Obligations.InvariantAtReset :=
  ⟨inv_start Config.finalDmEmitsDefault [] 0, inv_start⟩

end Sys2Proof.Machine
end

section
/-! What events read and write beside the invariants: the access rights of a host event (10_state.md R27), the fault
record (R28), and the reset values (R29). -/

namespace Sys2Proof.Machine

open Sys2Proof.Safety

/-! Host events (R27) -/

theorem eq_deposit_or_status_of_host {i : Instr} (h : agentOf i = some .host) :
    (∃ f, i = .deposit f) ∨ i = .status := by
  obtain rfl | ⟨f, rfl⟩ | rfl | rfl | ⟨p, rfl⟩ := instr_cases i
  · simp [agentOf] at h
  · exact .inl ⟨f, rfl⟩
  · exact .inr rfl
  · simp [agentOf] at h
  · cases p <;> simp [phaseInstr, agentOf] at h

theorem idle_congr {s s' : State} (hc : s.completed = s'.completed) (hr : s.ready = s'.ready) : idle s = idle s' := by
  rw [idle, idle, hc, hr]

theorem after_deposit_rsp (f : Frame) (s : State) :
    (after (.deposit f) s).rsp = some (if idle s then 1#32 else 0#32) := by
  rw [after_deposit]
  split <;> rfl

theorem statusWord_congr {s s' : State} (hc : s.completed = s'.completed) (hr : s.ready = s'.ready) :
    statusWord s = statusWord s' := by
  rw [statusWord, statusWord, idle_congr hc hr, hc, hr]

/-- Settles O18: a host event is a DEPOSIT, accepted or rejected, or a STATUS. -/
theorem hostAccessRights : Obligations.HostAccessRights := by
  refine ⟨fun i s hi => ?_, fun i s s' hi hc hr => ?_⟩
  · obtain ⟨f, rfl⟩ | rfl := eq_deposit_or_status_of_host hi
    · rw [after_deposit]
      split
      next hidle =>
        obtain ⟨hc, hr⟩ := (idle_iff s).1 hidle
        exact ⟨rfl, rfl, rfl, rfl, rfl, .inr ⟨f, rfl, hc, hr, rfl, rfl⟩⟩
      next => exact ⟨rfl, rfl, rfl, rfl, rfl, .inl ⟨rfl, rfl⟩⟩
    · exact ⟨rfl, rfl, rfl, rfl, rfl, .inl ⟨rfl, rfl⟩⟩
  · obtain ⟨f, rfl⟩ | rfl := eq_deposit_or_status_of_host hi
    · rw [after_deposit_rsp, after_deposit_rsp, idle_congr hc hr]
    · simp only [after_status, respond_rsp, statusWord_congr hc hr]

/-! The fault record (R28): every operation but a raise commutes with putting another record in place -/

@[simp] theorem withFaults_faults (l : List Fault) (s : State) : (withFaults l s).faults = l := rfl

@[simp] theorem withFaults_completed (l : List Fault) (s : State) : (withFaults l s).completed = s.completed := rfl
@[simp] theorem wf_withFaults (l : List Fault) (s : State) : wf (withFaults l s) = wf s := rfl
@[simp] theorem arrival_withFaults (l : List Fault) (s : State) : arrival (withFaults l s) = arrival s := rfl

/-- A raise appends to whatever record stands. -/
theorem raise_withFaults (e : Fault) (l : List Fault) (s : State) :
    raise e (withFaults l s) = withFaults (l ++ [e]) (raise e s) := rfl

theorem afterArrival_withFaults (l : List Fault) (s : State) :
    afterArrival (withFaults l s) = withFaults l (afterArrival s) := by
  cases he : s.events <;> simp [afterArrival, withFaults, he]

theorem pickup_withFaults (l : List Fault) (s : State) : pickup (withFaults l s) = withFaults l (pickup s) := by
  rw [pickup, pickup, apply_ite (withFaults l)]
  rfl

theorem timedStep_withFaults (p q : Phase) (l : List Fault) (s : State) :
    timedStep p q (withFaults l s) = withFaults l (timedStep p q s) := by
  rw [timedStep, timedStep, apply_ite (withFaults l)]
  rfl

theorem stepDm_withFaults (l : List Fault) (s : State) : stepDm (withFaults l s) = withFaults l (stepDm s) := by
  unfold stepDm
  simp only [apply_ite (withFaults l)]
  rfl

theorem stepFs_withFaults (l : List Fault) (s : State) : stepFs (withFaults l s) = withFaults l (stepFs s) := by
  rw [stepFs, stepFs, apply_ite (withFaults l)]
  rfl

theorem phaseStep_withFaults (p : Phase) (l : List Fault) (s : State) :
    phaseStep p (withFaults l s) = withFaults l (phaseStep p s) := by
  cases p with
  | hm => exact timedStep_withFaults .hm .hs l s
  | hs => exact timedStep_withFaults .hs .dm l s
  | dm => exact stepDm_withFaults l s
  | dhs => exact timedStep_withFaults .dhs .dm l s
  | dls => exact timedStep_withFaults .dls .dm l s
  | fm => exact timedStep_withFaults .fm .fs l s
  | fs => exact stepFs_withFaults l s

theorem cascade_withFaults (n : Nat) (l : List Fault) (s : State) :
    cascade n (withFaults l s) = withFaults l (cascade n s) := by
  induction n generalizing s with
  | zero => rfl
  | succ n ih =>
    cases hp : phaseOfCode s.state with
    | none => simp [cascade, withFaults, hp]
    | some p =>
      have hs := (phaseOfCode_eq_some _ _).1 hp
      rw [cascade_succ n p s hs, cascade_succ n p (withFaults l s) hs, phaseStep_withFaults, ih,
        apply_ite (withFaults l)]
      rfl

/-- A transition that does the same whatever the fault record holds: it answers the same state and appends the same
entries to each record. -/
def IgnoresFaults (f : State → Host.Outcome State Fault Refusal) (s : State) : Prop :=
  ∃ u new, ∀ l, f (withFaults l s) = .next (withFaults (l ++ new) u)

theorem ignoresFaults_of_next {f : State → Host.Outcome State Fault Refusal} {s : State} (u : State)
    (h : ∀ l, f (withFaults l s) = .next (withFaults l u)) : IgnoresFaults f s :=
  ⟨u, [], fun l => by rw [h, List.append_nil]⟩

theorem ignoresFaults_of_raise {f : State → Host.Outcome State Fault Refusal} {s : State} (e : Fault) (u : State)
    (h : ∀ l, f (withFaults l s) = .next (raise e (withFaults l u))) : IgnoresFaults f s :=
  ⟨raise e u, [e], h⟩

theorem ignoresFaults_execTick (s : State) : IgnoresFaults execTick s := by
  cases hw : wf s with
  | false =>
    have hraise (l : List Fault) :
        execTick (withFaults l s) = .next (raise (.corruptState (corruptInfo s)) (withFaults l s)) := if_pos hw
    exact ignoresFaults_of_raise _ s hraise
  | true =>
    have hwf (l : List Fault) : ¬wf (withFaults l s) = false := by simp [hw]
    refine ignoresFaults_of_next
      (respond 0#32 (if (pickup s).completed then pickup s else cascade cascadeBound (pickup s))) fun l => ?_
    rw [execTick, if_neg (hwf l), pickup_withFaults, cascade_withFaults, withFaults_completed]
    cases (pickup s).completed <;> rfl

theorem ignoresFaults_exec (i : Instr) (s : State) : IgnoresFaults (exec i) s := by
  obtain rfl | ⟨f, rfl⟩ | rfl | rfl | ⟨p, rfl⟩ := instr_cases i
  · exact ignoresFaults_execTick s
  · refine ignoresFaults_of_next (after (.deposit f) s) fun l => ?_
    rw [exec_eq_next_iff, after_deposit, after_deposit, apply_ite (withFaults l)]
    rfl
  · exact ignoresFaults_of_next (after .status s) fun _ => rfl
  · exact ignoresFaults_of_next (after .init s) fun _ => rfl
  · exact ignoresFaults_of_next (phaseStep p s) fun l => by rw [exec_phaseInstr, phaseStep_withFaults]

theorem ignoresFaults_stepEvent (s : State) : IgnoresFaults stepEvent s := by
  cases ha : arrival s with
  | none =>
    exact ignoresFaults_of_next (afterArrival s) fun l => by
      rw [stepEvent_of_none (withFaults l s) ha, afterArrival_withFaults]
  | some ev =>
    have happly (l : List Fault) :
        stepEvent (withFaults l s) = applyWord ev (withFaults l (afterArrival s)) := by
      rw [stepEvent_of_some ev (withFaults l s) ha, afterArrival_withFaults]
    cases hd : decode (.event ev) with
    | none =>
      exact ignoresFaults_of_raise _ (afterArrival s) fun l => by rw [happly, applyWord_of_none ev _ hd]
    | some i =>
      obtain ⟨u, new, h⟩ := ignoresFaults_exec i (afterArrival s)
      exact ⟨u, new, fun l => by rw [happly, applyWord_of_some ev i _ hd, h]⟩

theorem resumeCascade_of_phase (p : Phase) (s : State) (h : s.state = phaseCode p) :
    resumeCascade s = .next (if (phaseStep p s).cont then phaseStep p s else respond 0#32 (phaseStep p s)) := by
  simp [resumeCascade, decode, h, exec_phaseInstr, finishTick]

theorem resumeCascade_of_reserved (s : State) (h : phaseOfCode s.state = none) :
    resumeCascade s = .next (raise (.corruptState (corruptInfo s)) s) := by
  simp [resumeCascade, decode, decodePhase, h]

theorem ignoresFaults_resumeCascade (s : State) : IgnoresFaults resumeCascade s := by
  cases hp : phaseOfCode s.state with
  | none =>
    exact ignoresFaults_of_raise (.corruptState (corruptInfo s)) s fun l => resumeCascade_of_reserved (withFaults l s) hp
  | some p =>
    have hs := (phaseOfCode_eq_some _ _).1 hp
    refine ignoresFaults_of_next
      (if (phaseStep p s).cont then phaseStep p s else respond 0#32 (phaseStep p s)) fun l => ?_
    rw [resumeCascade_of_phase p (withFaults l s) hs, phaseStep_withFaults, apply_ite (withFaults l)]
    rfl

/-- With a cascade open or not, no step reads or clears the fault record (R28). -/
theorem ignoresFaults_step (s : State) : IgnoresFaults step s := by
  cases hc : s.cont with
  | false =>
    obtain ⟨u, new, h⟩ := ignoresFaults_stepEvent s
    exact ⟨u, new, fun l => (step_eq_stepEvent (withFaults l s) hc).trans (h l)⟩
  | true =>
    obtain ⟨u, new, h⟩ := ignoresFaults_resumeCascade s
    exact ⟨u, new, fun l => (if_pos hc).trans (h l)⟩

/-- Settles O41: `ignoresFaults_step` at the state's own record and at the other. -/
theorem faultRecordIsNeverRead : Obligations.FaultRecordIsNeverRead := by
  refine ⟨rfl, fun s l => ?_⟩
  obtain ⟨u, new, h⟩ := ignoresFaults_step s
  exact ⟨withFaults (s.faults ++ new) u, withFaults (l ++ new) u, new, h s.faults, h l, rfl, rfl, rfl⟩

/-! The reset values (R29) -/

/-- Settles O13: the values of `State.reset`, and INIT's, by evaluation; INIT keeps the fault record of its start. -/
theorem resetValues : Obligations.ResetValues :=
  ⟨rfl, rfl, rfl, fun s => ⟨after .init s, exec_eq_after .init s, rfl, rfl⟩⟩

end Sys2Proof.Machine
end

section
/-! The events as writers of the registers (20_memory.md R39 to R43): what one whole cascade can do, the side effects and
the idempotency of each event, and that an event in flight holds the frame. -/

namespace Sys2Proof.Machine

open Sys2Proof.Safety

/-! One whole cascade -/

/-- A phase just entered by a cascade emits at once, but for data-mark at the end of the data, which hands over to
footer-mark (R66, R69). -/
theorem cascade_enter_emits (n : Nat) (q : Phase) (s : State) :
    ∃ r, (r = q ∨ q = .dm ∧ r = .fm) ∧ cascade (n + 2) (enter q s) = emit r (enter r s) := by
  by_cases hq : q = .dm
  · subst hq
    rw [cascade_fresh_dm]
    split
    · exact ⟨.fm, .inr ⟨rfl, rfl⟩, rfl⟩
    · exact ⟨.dm, .inl rfl, rfl⟩
  · exact ⟨q, .inl rfl, cascade_fresh (n + 1) q s (.inl hq)⟩

/-- A cascade from a phase that only counts its duration emits there, or in a later phase (R67, R68, R70 to R72). -/
theorem cascade_cases_of_timed (p q : Phase) (s : State) (h : s.state = phaseCode p)
    (hstep : phaseStep p s = timedStep p q s) (hq : q ≠ p) (hfm : q = .dm → p ≠ .fm) :
    (s.ticks ≠ dur p ∧ cascade cascadeBound s = emit p s)
    ∨ ∃ r, r ≠ p ∧ cascade cascadeBound s = emit r (enter r s) := by
  obtain ⟨-, ht⟩ | ⟨ht, he⟩ := timedStep_cases p q s
  · obtain ⟨r, hr, hc⟩ := cascade_enter_emits 0 q s
    refine .inr ⟨r, ?_, (cascade_enter 2 p q s s h (hstep.trans ht)).trans hc⟩
    obtain rfl | ⟨hdm, rfl⟩ := hr
    · exact hq
    · exact (hfm hdm).symm
  · exact .inl ⟨ht, cascade_emit 2 p s h (hstep.trans he)⟩

/-- Everything one whole cascade can do (R66 to R73): emit in the phase it starts from, emit in another phase, emit in
the data space of the bit it counts, or complete the frame. -/
theorem cascade_cases (p : Phase) (s : State) (h : s.state = phaseCode p) :
    (s.ticks ≠ dur p ∧ cascade cascadeBound s = emit p s)
    ∨ (p ≠ .fs ∧ ∃ q, q ≠ p ∧ cascade cascadeBound s = emit q (enter q s))
    ∨ (p = .dm ∧ s.ticks = 1#5 ∧ s.index ≠ 32#6
        ∧ ∃ q, q ≠ p ∧ cascade cascadeBound s = emit q (enter q (countBit s)))
    ∨ (p = .fs ∧ s.ticks = 1#5 ∧ cascade cascadeBound s = complete s) := by
  cases p with
  | hm => exact (cascade_cases_of_timed .hm .hs s h rfl nofun nofun).imp_right fun hq => .inl ⟨nofun, hq⟩
  | hs => exact (cascade_cases_of_timed .hs .dm s h rfl nofun nofun).imp_right fun hq => .inl ⟨nofun, hq⟩
  | dm =>
    rw [cascade_dm s h]
    split
    · exact .inr (.inl ⟨nofun, .fm, nofun, rfl⟩)
    next hend =>
      split
      next ht =>
        have hi : s.index ≠ 32#6 := fun hi => hend ⟨hi, .inr ht⟩
        refine .inr (.inr (.inl ⟨rfl, ht, hi, ?_⟩))
        split
        · exact ⟨.dhs, nofun, rfl⟩
        · exact ⟨.dls, nofun, rfl⟩
      next ht => exact .inl ⟨ht, rfl⟩
  | dhs => exact (cascade_cases_of_timed .dhs .dm s h rfl nofun nofun).imp_right fun hq => .inl ⟨nofun, hq⟩
  | dls => exact (cascade_cases_of_timed .dls .dm s h rfl nofun nofun).imp_right fun hq => .inl ⟨nofun, hq⟩
  | fm => exact (cascade_cases_of_timed .fm .fs s h rfl nofun nofun).imp_right fun hq => .inl ⟨nofun, hq⟩
  | fs =>
    rw [cascade_fs s h]
    split
    next ht => exact .inr (.inr (.inr ⟨rfl, ht, rfl⟩))
    next ht => exact .inl ⟨ht, rfl⟩

/-- A cascade writes `ready` nowhere (R66). -/
theorem cascade_ready (p : Phase) (s : State) (h : s.state = phaseCode p) :
    (cascade cascadeBound s).ready = s.ready := by
  obtain ⟨-, hc⟩ | ⟨-, q, -, hc⟩ | ⟨-, -, -, q, -, hc⟩ | ⟨-, -, hc⟩ := cascade_cases p s h
  all_goals
    rw [hc]
    rfl

/-- A cascade holds the frame, unless it is the completion tick of footer-space (R73). -/
theorem cascade_frame (p : Phase) (s : State) (h : s.state = phaseCode p) :
    (cascade cascadeBound s).frame = s.frame ∨ (p = .fs ∧ cascade cascadeBound s = complete s) := by
  obtain ⟨-, hc⟩ | ⟨-, q, -, hc⟩ | ⟨-, -, -, q, -, hc⟩ | ⟨hp, -, hc⟩ := cascade_cases p s h
  · exact .inl (hc ▸ rfl)
  · exact .inl (hc ▸ rfl)
  · exact .inl (hc ▸ rfl)
  · exact .inr ⟨hp, hc⟩

/-! The registers under each event -/

@[simp] theorem registers_respond (v : Word) (s : State) : registers (respond v s) = registers s := rfl

/-- In flight every cascade leaves a mark: it counts an emission in its phase, stands at another phase, or completes
(R40). -/
theorem registers_cascade_ne (p : Phase) (s : State) (h : s.state = phaseCode p) (ht : s.ticks ≤ dur p)
    (hcompleted : s.completed = false) : registers (cascade cascadeBound s) ≠ registers s := by
  intro heq
  obtain ⟨-, hc⟩ | ⟨-, q, hq, hc⟩ | ⟨-, -, -, q, hq, hc⟩ | ⟨-, -, hc⟩ := cascade_cases p s h
  all_goals rw [hc] at heq
  · have hticks : s.ticks + 1#5 = s.ticks := (nextTicks_of_le s p ht).symm.trans (congrArg Registers.ticks heq)
    bv_omega
  · exact hq (phaseCode_inj q p ((congrArg Registers.state heq).trans h))
  · exact hq (phaseCode_inj q p ((congrArg Registers.state heq).trans h))
  · exact Bool.noConfusion ((congrArg Registers.completed heq).trans hcompleted)

/-- A TICK of a well-formed block that is not at rest changes a register: the pickup clears `ready`, or the cascade goes
on (R40). -/
theorem registers_after_tick_ne (s : State) (hwf : wf s = true) (hbusy : s.ready = true ∨ s.completed = false) :
    registers (after .tick s) ≠ registers s := by
  obtain ⟨p, hp, hticks, -⟩ := (wf_iff s).1 hwf
  obtain ⟨hw, -⟩ | ⟨-, hr, hc, -⟩ | ⟨-, -, ht⟩ := after_tick_cases s
  · simp [hwf] at hw
  · simp [hr, hc] at hbusy
  · rw [ht, registers_respond]
    cases hr : s.ready with
    | true =>
      have hcleared : (cascade cascadeBound (pickup s)).ready = false := by
        rw [cascade_ready p (pickup s) (by rwa [pickup_state]), pickup_ready]
      intro heq
      exact Bool.noConfusion (hcleared.symm.trans ((congrArg Registers.ready heq).trans hr))
    | false =>
      rw [pickup_of_not_ready s hr]
      exact registers_cascade_ne p s hp hticks (by simpa [hr] using hbusy)

theorem after_deposit_of_idle (f : Frame) (s : State) (h : idle s = true) :
    after (.deposit f) s = respond 1#32 { s with frame := f, ready := true } := by
  rw [after_deposit, if_pos h]

theorem after_deposit_of_not_idle (f : Frame) (s : State) (h : idle s = false) :
    after (.deposit f) s = respond 0#32 s := by
  simp [h]

/-- Accepted or rejected, a DEPOSIT leaves a block that accepts no other (R22, R40). -/
theorem idle_after_deposit (f : Frame) (s : State) : idle (after (.deposit f) s) = false := by
  cases h : idle s with
  | true => simp [after_deposit_of_idle f s h, idle]
  | false => rw [after_deposit_of_not_idle f s h]; exact h

/-- A DEPOSIT that follows another at once is rejected (R40). -/
theorem after_deposit_deposit (f g : Frame) (s : State) :
    after (.deposit g) (after (.deposit f) s) = respond 0#32 (after (.deposit f) s) :=
  after_deposit_of_not_idle g _ (idle_after_deposit f s)

/-! The obligations -/

/-- Settles O5: the oldest listed event is the one that arrives, and its word is the one applied. -/
theorem stepRunsTheDecodedEvent : Obligations.StepRunsTheDecodedEvent := by
  intro s ev rest i hc he hd
  obtain ⟨harrival, hafter⟩ := arrival_cons s ev rest he
  rw [step_eq_stepEvent s hc, stepEvent_of_some ev s harrival, hafter, applyWord_of_some ev i _ hd]

/-- Settles O17: STATUS only responds, a second DEPOSIT meets a block that is not idle, a TICK that is not at rest
leaves a mark (`registers_after_tick_ne`), and INIT writes constants. -/
theorem sideEffectsOfEvents : Obligations.SideEffectsOfEvents := by
  refine ⟨fun s => ⟨rfl, rfl, rfl⟩, fun s f g => ⟨fun hidle => ?_, ?_⟩, registers_after_tick_ne, fun _ => rfl⟩
  · rw [after_deposit_deposit, after_deposit_of_idle f s hidle]
    exact ⟨rfl, rfl, rfl⟩
  · rw [after_deposit_deposit, registers_respond]

/-- Settles O34: in flight a DEPOSIT is rejected, and a TICK is a cascade, which holds the frame or completes it. -/
theorem frameIsHeldInFlight : Obligations.FrameIsHeldInFlight := by
  rintro i s hcompleted ⟨a, ha⟩ hinit
  obtain rfl | ⟨f, rfl⟩ | rfl | rfl | ⟨p, rfl⟩ := instr_cases i
  · obtain ⟨-, ht⟩ | ⟨-, -, -, ht⟩ | ⟨hwf, -, ht⟩ := after_tick_cases s
    · exact .inl (ht ▸ rfl)
    · exact .inl (ht ▸ rfl)
    · obtain ⟨p, hp, -⟩ := (wf_iff s).1 hwf
      rw [ht, respond_frame, respond_completed]
      obtain hframe | ⟨rfl, hc⟩ := cascade_frame p (pickup s) (by rwa [pickup_state])
      · exact .inl (hframe.trans (pickup_frame s))
      · exact .inr ⟨rfl, hp, hc ▸ rfl, hc ▸ rfl⟩
  · exact .inl (by rw [after_deposit_of_not_idle f s (by simp [idle, hcompleted]), respond_frame])
  · exact .inl rfl
  · exact absurd rfl hinit
  · cases p <;> simp [phaseInstr, agentOf] at ha

end Sys2Proof.Machine
end

section
/-! The encoding (30_encoding.md R48 to R61): the fields of an event word as numbers, that the decoder is the exact
inverse of the encoder, and which words the decoder refuses. -/

namespace Sys2Proof.Machine

/-! Fields as numbers -/

/-- A field placed above the bits of a smaller word adds its weight to that word's value. -/
theorem toNat_shiftLeft_or {w : Nat} (x y : BitVec w) (k : Nat) (hx : x.toNat * 2 ^ k < 2 ^ w)
    (hy : y.toNat < 2 ^ k) : (x <<< k ||| y).toNat = x.toNat * 2 ^ k + y.toNat := by
  rw [BitVec.toNat_or, BitVec.toNat_shiftLeft, Nat.shiftLeft_eq, Nat.mod_eq_of_lt hx, ← Nat.shiftLeft_eq,
    Nat.shiftLeft_add_eq_or_of_lt hy]

/-- The value of an event word is `op * 2^32 + data` (R48). -/
theorem toNat_eventWord (op : BitVec 3) (d : Word) : (eventWord op d).toNat = op.toNat * 2 ^ 32 + d.toNat := by
  have hop := op.isLt
  have hd := d.isLt
  have hopWide : (op.setWidth 35).toNat = op.toNat := BitVec.toNat_setWidth_of_le (by decide)
  have hdWide : (d.setWidth 35).toNat = d.toNat := BitVec.toNat_setWidth_of_le (by decide)
  rw [eventWord, toNat_shiftLeft_or _ _ 32 (by omega) (by omega), hopWide, hdWide]

theorem toNat_eventOp (ev : EventWord) : (eventOp ev).toNat = ev.toNat / 2 ^ 32 := by
  have h := toNat_eventWord (eventOp ev) (eventData ev)
  have hd := (eventData ev).isLt
  rw [eventWord_fields] at h
  omega

theorem toNat_eventData (ev : EventWord) : (eventData ev).toNat = ev.toNat % 2 ^ 32 := by
  have h := toNat_eventWord (eventOp ev) (eventData ev)
  have hd := (eventData ev).isLt
  rw [eventWord_fields] at h
  omega

/-- An event word is `{op, data}` exactly when it has that value (R48). -/
theorem eventWord_eq_iff (op : BitVec 3) (d : Word) (ev : EventWord) :
    eventWord op d = ev ↔ ev.toNat = op.toNat * 2 ^ 32 + d.toNat := by
  rw [← BitVec.toNat_inj, toNat_eventWord, eq_comm]

/-! Decoder and encoder -/

@[simp] theorem encode_phaseInstr (p : Phase) : encode (phaseInstr p) = .phase (phaseCode p) := by
  cases p <;> rfl

theorem decode_encode (i : Instr) : decode (encode i) = some i := by
  obtain rfl | ⟨f, rfl⟩ | rfl | rfl | ⟨p, rfl⟩ := instr_cases i
  · rfl
  · simp [encode, decode, decodeEvent]
  · rfl
  · rfl
  · simp [decode]

/-- An event word with the op and the data that an encoding has is that encoding (R48). -/
theorem event_eventWord_of_fields {ev : EventWord} {op : BitVec 3} {d : Word} (hop : eventOp ev = op)
    (hd : eventData ev = d) : TableWord.event (eventWord op d) = .event ev := by
  rw [← hop, ← hd, eventWord_fields]

/-- The decoder of event words reads an instruction only from that instruction's word (R49, R61). -/
theorem encode_of_decodeEvent {ev : EventWord} {i : Instr} (h : decodeEvent ev = some i) : encode i = .event ev := by
  unfold decodeEvent at h
  split at h
  next hop =>
    obtain ⟨hd, rfl⟩ : eventData ev = 0#32 ∧ .tick = i := by simpa using h
    exact event_eventWord_of_fields hop hd
  next =>
    split at h
    next hop =>
      obtain rfl : .deposit (eventData ev) = i := by simpa using h
      exact event_eventWord_of_fields hop rfl
    next =>
      split at h
      next hop =>
        obtain ⟨hd, rfl⟩ : eventData ev = 0#32 ∧ .status = i := by simpa using h
        exact event_eventWord_of_fields hop hd
      next =>
        obtain ⟨hop, hd, rfl⟩ : eventOp ev = 0b011#3 ∧ eventData ev = 0#32 ∧ .init = i := by simpa using h
        exact event_eventWord_of_fields hop hd

/-- The dispatch on a phase code reads a phase step only from that phase's code (R15, R58). -/
theorem decodePhase_eq_some {code : PhaseCode} {i : Instr} (h : decodePhase code = some i) :
    ∃ p, code = phaseCode p ∧ i = phaseInstr p := by
  obtain ⟨p, hp, rfl⟩ := Option.map_eq_some_iff.1 h
  exact ⟨p, (phaseOfCode_eq_some code p).1 hp, rfl⟩

theorem encode_of_decode {w : TableWord} {i : Instr} (h : decode w = some i) : encode i = w := by
  cases w with
  | event ev => exact encode_of_decodeEvent h
  | phase code =>
    obtain ⟨p, rfl, rfl⟩ := decodePhase_eq_some h
    exact encode_phaseInstr p

theorem decode_eq_some_iff (w : TableWord) (i : Instr) : decode w = some i ↔ encode i = w :=
  ⟨encode_of_decode, fun h => h ▸ decode_encode i⟩

/-! Accepted and refused words -/

/-- The encoder writes only words that pass the checks (R50, R51, R58). -/
theorem wellFormed_encode (i : Instr) : (encode i).wellFormed = true := by
  obtain rfl | ⟨f, rfl⟩ | rfl | rfl | ⟨p, rfl⟩ := instr_cases i
  · exact Laws.Encodes.tick rfl
  · exact Laws.Encodes.deposit f rfl
  · exact Laws.Encodes.status rfl
  · exact Laws.Encodes.init rfl
  · cases p <;> decide

/-- The checks on an event word, on its value (R50, R51). -/
theorem wellFormed_event_iff (ev : EventWord) :
    TableWord.wellFormed (.event ev) = true
      ↔ ev.toNat / 2 ^ 32 < 4 ∧ (ev.toNat / 2 ^ 32 = 1 ∨ ev.toNat % 2 ^ 32 = 0) := by
  rw [← toNat_eventOp, ← toNat_eventData]
  simp [TableWord.wellFormed, opDefined_eq, dataDefined_eq, BitVec.lt_def, ← BitVec.toNat_inj]

/-- Every event word that passes the checks is the word of an event (R49): a DEPOSIT for op 1, else the event of its
op, the data being 0. -/
theorem exists_encode_event {ev : EventWord} (h : TableWord.wellFormed (.event ev) = true) :
    ∃ i, encode i = .event ev := by
  obtain ⟨hop, hdata⟩ := (wellFormed_event_iff ev).1 h
  rw [← toNat_eventOp] at hop hdata
  rw [← toNat_eventData] at hdata
  by_cases h1 : (eventOp ev).toNat = 1
  · exact ⟨.deposit (eventData ev), event_eventWord_of_fields (BitVec.eq_of_toNat_eq h1) rfl⟩
  · have hd : eventData ev = 0#32 := BitVec.eq_of_toNat_eq (hdata.resolve_left h1)
    obtain h0 | h2 | h3 : (eventOp ev).toNat = 0 ∨ (eventOp ev).toNat = 2 ∨ (eventOp ev).toNat = 3 := by omega
    · exact ⟨.tick, event_eventWord_of_fields (BitVec.eq_of_toNat_eq h0) hd⟩
    · exact ⟨.status, event_eventWord_of_fields (BitVec.eq_of_toNat_eq h2) hd⟩
    · exact ⟨.init, event_eventWord_of_fields (BitVec.eq_of_toNat_eq h3) hd⟩

/-- Every phase code but the reserved one is the word of a phase step (R58). -/
theorem exists_encode_phase {code : PhaseCode} (h : TableWord.wellFormed (.phase code) = true) :
    ∃ i, encode i = .phase code := by
  have hcode : code ≠ 7#3 := by simpa [TableWord.wellFormed, PhaseCode.phaseDefined] using h
  obtain ⟨p, hp⟩ := Option.ne_none_iff_exists'.1 fun hnone => hcode ((phaseOfCode_eq_none code).1 hnone)
  exact ⟨phaseInstr p, by rw [encode_phaseInstr, (phaseOfCode_eq_some code p).1 hp]⟩

/-- The words of the instructions are exactly those that pass the checks. -/
theorem wellFormed_iff_exists_encode (w : TableWord) : w.wellFormed = true ↔ ∃ i, encode i = w := by
  refine ⟨fun h => ?_, fun ⟨i, hi⟩ => hi ▸ wellFormed_encode i⟩
  cases w with
  | event ev => exact exists_encode_event h
  | phase code => exact exists_encode_phase h

theorem exists_decode_iff (w : TableWord) : (∃ i, decode w = some i) ↔ w.wellFormed = true := by
  simp only [decode_eq_some_iff, wellFormed_iff_exists_encode]

theorem decode_eq_none_iff (w : TableWord) : decode w = none ↔ ¬w.wellFormed = true := by
  rw [← exists_decode_iff, ← Option.ne_none_iff_exists', not_not]

/-- A word decodes to an event exactly when it has the value of that event's encoding (R48, R49). -/
theorem decode_event_eq_some_iff {i : Instr} {op : BitVec 3} {d : Word} {n : Nat}
    (hi : encode i = .event (eventWord op d)) (hn : op.toNat * 2 ^ 32 + d.toNat = n) (ev : EventWord) :
    decode (.event ev) = some i ↔ ev.toNat = n := by
  rw [decode_eq_some_iff, hi, TableWord.event.injEq, eventWord_eq_iff, hn]

/-! The obligations -/

/-- Settles O3: what the decoder reads from an encoding (`decode_encode`), and that it reads an instruction from no
other word (`encode_of_decode`). -/
theorem decodeInvertsEncode : Obligations.DecodeInvertsEncode :=
  fun i w _ => decode_eq_some_iff w i

/-- Settles O4: the words that decode are the encodings, and these are the words that pass the checks. -/
theorem decodeAcceptsExactlyWellFormedWords : Obligations.DecodeAcceptsExactlyWellFormedWords :=
  exists_decode_iff

/-- Settles O2: a word names an event exactly when its value is that of the event's encoding, and none exactly when a
check on its value refuses it. -/
theorem decoderNamesOneEventOrNone : Obligations.DecoderNamesOneEventOrNone := by
  intro ev
  refine ⟨decode_event_eq_some_iff rfl (by decide) ev, fun f => decode_event_eq_some_iff rfl (by simp) ev,
    decode_event_eq_some_iff rfl (by decide) ev, decode_event_eq_some_iff rfl (by decide) ev, ?_⟩
  rw [decode_eq_none_iff, wellFormed_event_iff, not_and_or, not_or, not_lt]

/-- Settles O1: the decoder evaluated on each of the vectors. -/
theorem specWordsDecode : Obligations.SpecWordsDecode := by
  unfold Obligations.SpecWordsDecode
  decide

end Sys2Proof.Machine
end

section
/-! The placed instruction (30_encoding.md R58), the frame layout (R55, R56) and the host loop WAITIDLE (R60). -/

namespace Sys2Proof.Machine

/-! A step of a placed word -/

theorem withFetchWord_event (s : State) (nbits w : Nat) (h : 8 < nbits) :
    s.withFetchWord nbits w = placeEvent (BitVec.ofNat 35 w) s := by
  simp [State.withFetchWord, tableWord, not_le.2 h]

theorem withFetchWord_phase (s : State) (nbits w : Nat) (h : nbits ≤ 8) :
    s.withFetchWord nbits w = placePhase (BitVec.ofNat 3 w) s := by
  simp [State.withFetchWord, tableWord, h]

theorem decodeTableWord_event (nbits w : Nat) (h : 8 < nbits) :
    decodeTableWord nbits w = decode (.event (BitVec.ofNat 35 w)) := by
  simp [decodeTableWord, tableWord, not_le.2 h]

theorem decodeTableWord_phase (nbits w : Nat) (h : nbits ≤ 8) :
    decodeTableWord nbits w = decodePhase (BitVec.ofNat 3 w) := by
  simp [decodeTableWord, tableWord, h, decode]

/-- A placed event is the oldest listed one, so the step runs it, in the state it was placed in. -/
theorem step_placeEvent {ev : EventWord} {i : Instr} (s : State) (h : decode (.event ev) = some i) :
    step (placeEvent ev s) = exec i { s with cont := false } :=
  stepRunsTheDecodedEvent (placeEvent ev s) ev s.events i rfl rfl h

/-- Where no cascade is open a response leaves `cont` too (R53). -/
theorem respond_of_not_cont (v : Word) (s : State) (h : s.cont = false) : respond v s = { s with rsp := some v } := by
  simp [respond, h]

/-- With a cascade open at phase `p` a step is the step of `p`, and the TICK answers 0 when that step answers DONE
(R39, R66). -/
theorem step_of_open_cascade (p : Phase) (s : State) (hc : s.cont = true) (h : s.state = phaseCode p) :
    step s = .next (if (phaseStep p s).cont then phaseStep p s else { phaseStep p s with rsp := some 0#32 }) := by
  rw [step, if_pos hc, resumeCascade_of_phase p s h]
  split
  · rfl
  next hdone => rw [respond_of_not_cont _ _ (by simpa using hdone)]

/-- Settles O8: a word of more than 8 bits is placed as the oldest event, a shorter one as the phase of an open
cascade. -/
theorem stepRunsThePlacedInstruction : Obligations.StepRunsThePlacedInstruction := by
  refine fun s nbits w i hdecode => ⟨fun hn => ?_, fun hn => ?_⟩
  · rw [decodeTableWord_event nbits w hn] at hdecode
    rw [withFetchWord_event s nbits w hn, step_placeEvent s hdecode]
  · rw [decodeTableWord_phase nbits w hn] at hdecode
    obtain ⟨p, hp, rfl⟩ := decodePhase_eq_some hdecode
    rw [withFetchWord_phase s nbits w hn]
    exact ⟨_, exec_phaseInstr p _, step_of_open_cascade p (placePhase (BitVec.ofNat 3 w) s) rfl hp⟩

/-! Frame assembly -/

/-- A field of a frame is what division and remainder cut out of its value. -/
theorem extractLsb'_eq_of_toNat {f : Frame} {len : Nat} (start : Nat) (v : BitVec len)
    (h : f.toNat / 2 ^ start % 2 ^ len = v.toNat) : f.extractLsb' start len = v := by
  refine BitVec.eq_of_toNat_eq ?_
  rw [BitVec.extractLsb'_toNat, Nat.shiftRight_eq_div_pow, h]

/-- The value of an assembled frame: complement, command and address stand side by side (R55, R56). -/
theorem toNat_assemble (a : BitVec 16) (c : BitVec 8) :
    (assemble a c).toNat = (255 - c.toNat) * 2 ^ 24 + c.toNat * 2 ^ 16 + a.toNat := by
  have ha := a.isLt
  have hc := c.isLt
  have haWide : (a.setWidth 32).toNat = a.toNat := BitVec.toNat_setWidth_of_le (by decide)
  have hcWide : (c.setWidth 32).toNat = c.toNat := BitVec.toNat_setWidth_of_le (by decide)
  have hnWide : ((~~~c).setWidth 32).toNat = 255 - c.toNat := by
    rw [BitVec.toNat_setWidth_of_le (by decide), BitVec.toNat_not]
  have hlow := toNat_shiftLeft_or (c.setWidth 32) (a.setWidth 32) 16 (by omega) (by omega)
  rw [assemble, BitVec.or_comm (a.setWidth 32), BitVec.or_comm, toNat_shiftLeft_or _ _ 24 (by omega) (by omega), hlow]
  omega

/-- Settles O52: the frame's value (`toNat_assemble`), from which each field is cut by division. -/
theorem assembledFrameFields : Obligations.AssembledFrameFields := by
  intro a c
  have hf := toNat_assemble a c
  have ha := a.isLt
  have hc := c.isLt
  have hn : (~~~c).toNat = 255 - c.toNat := BitVec.toNat_not
  exact ⟨hf, extractLsb'_eq_of_toNat 0 a (by omega), extractLsb'_eq_of_toNat 16 c (by omega),
    extractLsb'_eq_of_toNat 24 (~~~c) (by omega)⟩

/-! The host loop WAITIDLE -/

theorem statusWord_of_idle {s : State} (h : idle s = true) : statusWord s = 0b101#32 := by
  obtain ⟨hc, hr⟩ := (idle_iff s).1 h
  simp [statusWord, h, hc, hr]

/-- Bit 2 of the status word is IDLE (R54). -/
theorem statusWord_getLsbD_idle (s : State) : (statusWord s).getLsbD 2 = idle s := by
  simp [statusWord]

/-- WAITIDLE's loop ends on IDLE (R60). -/
theorem taskReturns_waitIdle (s : State) : taskReturns .waitIdle (after .status s) = idle s :=
  statusWord_getLsbD_idle s

theorem runTask_cons (k : HostTask) (others : List Instr) (rest : List (List Instr)) (s : State) :
    runTask k (others :: rest) s
      = if taskReturns k (after (taskEvent k) (afterAll others s)) then (true, after (taskEvent k) (afterAll others s))
        else runTask k rest (after (taskEvent k) (afterAll others s)) := rfl

/-- Settles O55: a turn of the loop is a STATUS, which only responds, and it ends the loop exactly in an idle block. -/
theorem waitIdleReturnsWhenIdle : Obligations.WaitIdleReturnsWhenIdle := by
  intro others rest s
  rw [runTask_cons, taskEvent, taskReturns_waitIdle, after_status]
  refine ⟨fun hidle => ?_, fun hidle => ⟨statusWord (afterAll others s), ?_⟩⟩
  · rw [if_pos hidle, statusWord_of_idle hidle]
    rfl
  · rw [if_neg (by simp [hidle])]
    rfl

end Sys2Proof.Machine
end

section
/-! The phase steps and the TICK written out (40_encoder.md R62 to R73): what an emission and a transition leave, a TICK
in each phase of a block in flight, and the TICKs that pick up, complete, and meet an ill-formed state. -/

namespace Sys2Proof.Machine

open Sys2Proof.Safety

/-! Emissions and transitions as one update -/

/-- An emission, in every state: at `ticks = 31` the count is a free value (R66, log entry 6). -/
theorem emit_eq (p : Phase) (s : State) :
    emit p s
      = if s.ticks = 31#5 then
          { s with gate := lvl p, ticks := Config.freeTicks s.draws, draws := s.draws + 1, cont := false }
        else { s with gate := lvl p, ticks := s.ticks + 1#5, cont := false } := by
  unfold emit nextTicks
  split <;> rfl

theorem emit_eq_of_ne_31 (p : Phase) (s : State) (h : s.ticks ≠ 31#5) :
    emit p s = { s with gate := lvl p, ticks := s.ticks + 1#5, cont := false } := by
  rw [emit_eq, if_neg h]

/-- A phase entered emits its first period: `ticks` is 1 and `gate` is its level (R66). -/
theorem emit_enter_eq (p : Phase) (s : State) :
    emit p (enter p s) = { s with state := phaseCode p, ticks := 1#5, gate := lvl p, cont := false } := rfl

/-- The step of a phase that only counts its duration, in every state (R67, R68, R70 to R72). -/
theorem timedStep_eq (p q : Phase) (s : State) :
    timedStep p q s
      = if s.ticks = dur p then { s with state := phaseCode q, ticks := 0#5, cont := true }
        else if s.ticks = 31#5 then
          { s with gate := lvl p, ticks := Config.freeTicks s.draws, draws := s.draws + 1, cont := false }
        else { s with gate := lvl p, ticks := s.ticks + 1#5, cont := false } := by
  rw [timedStep, emit_eq]
  rfl

/-- The step of footer-space, in every state (R73). -/
theorem stepFs_eq (s : State) :
    stepFs s
      = if s.ticks = 1#5 then
          { s with index := 0#6, completed := true, frame := 0#32, state := phaseCode .hm, ticks := 0#5, cont := false }
        else if s.ticks = 31#5 then
          { s with gate := false, ticks := Config.freeTicks s.draws, draws := s.draws + 1, cont := false }
        else { s with gate := false, ticks := s.ticks + 1#5, cont := false } := by
  rw [stepFs, emit_eq]
  rfl

/-! The frame bit (R57) -/

/-- The bit read is the frame's bit at `index`, and 0 above bit 31 (R9). -/
theorem frameBit_eq_getLsbD (f : Frame) (i : BitIndex) : frameBit f i = f.getLsbD i.toNat := by
  simp [frameBit]

theorem frameBit_iff_and_one (f : Frame) (i : BitIndex) : frameBit f i = true ↔ (f >>> i.toNat) &&& 1#32 = 1#32 := by
  rw [frameBit, BitVec.and_one_eq_setWidth_ofBool_getLsbD]
  cases (f >>> i.toNat).getLsbD 0 <;> decide

/-! The phase steps, one by one -/

/-- Data-mark at the end of the data enters footer-mark (R69). -/
theorem stepDm_of_end {s : State} (hi : s.index = 32#6) (hend : s.finalDmEmits = false ∨ s.ticks = 1#5) :
    stepDm s = enter .fm s :=
  if_pos ⟨hi, hend⟩

/-- Data-mark, its mark made, counts the bit it reads and enters that bit's space (R69). -/
theorem stepDm_of_bit {s : State} (hi : s.index ≠ 32#6) (ht : s.ticks = 1#5) :
    stepDm s = if frameBit s.frame s.index then enter .dhs (countBit s) else enter .dls (countBit s) := by
  rw [stepDm, if_neg fun h => hi h.1, if_pos ht]

/-- Data-mark makes its mark, at the end of the data only with FINAL_DM_EMITS (R69). -/
theorem stepDm_of_mark {s : State} (hgoes : s.index ≠ 32#6 ∨ s.finalDmEmits = true) (ht : s.ticks ≠ 1#5) :
    stepDm s = emit .dm s := by
  have hend : ¬(s.index = 32#6 ∧ (s.finalDmEmits = false ∨ s.ticks = 1#5)) := by
    rintro ⟨hi, hf | h1⟩
    · exact hgoes.elim (fun h => h hi) fun h => Bool.noConfusion (hf.symm.trans h)
    · exact ht h1
  rw [stepDm, if_neg hend, if_neg ht]

/-- Settles O24: the three rules of `stepDm`. -/
theorem dataMarkStep : Obligations.DataMarkStep := by
  refine fun s => ⟨fun hi hend => ?_, fun hi ht => ?_, fun hgoes ht => ?_⟩
  · exact congrArg Host.Outcome.next (stepDm_of_end hi hend)
  · refine congrArg Host.Outcome.next ((stepDm_of_bit hi ht).trans ?_)
    simp only [frameBit_iff_and_one]
    rw [← apply_ite (fun q => enter q (countBit s)), enter, apply_ite phaseCode]
    rfl
  · exact congrArg Host.Outcome.next (stepDm_of_mark hgoes ht)

/-- Settles O7: `step_of_open_cascade`, at the phase step's own answer. -/
theorem stepRunsThePhaseOfAnOpenCascade : Obligations.StepRunsThePhaseOfAnOpenCascade := by
  intro s t p hc hs ht
  rw [exec_eq_next_iff, after_phaseInstr] at ht
  rw [step_of_open_cascade p s hc hs, ht]
  rfl

/-! A TICK in flight -/

theorem inFlight_of_code {p : Phase} {s : State} (h : inv s = true) (hc : s.completed = false)
    (hs : s.state = phaseCode p) : InFlight p s := by
  obtain ⟨q, hq⟩ := (inv_of_not_completed s hc).1 h
  obtain rfl := phaseCode_inj p q (hs.symm.trans hq.state_eq)
  exact hq

/-- A well-formed block in flight takes one cascade per TICK (R62). -/
theorem exec_tick_of_not_completed {s : State} (hwf : wf s = true) (hr : s.ready = false)
    (hc : s.completed = false) : exec .tick s = .next (respond 0#32 (cascade cascadeBound s)) := by
  simp [exec, execTick, hwf, pickup_of_not_ready s hr, hc]

/-- What a TICK leaves that goes over to phase `q`. -/
theorem respond_emit_enter (v : Word) (q : Phase) {s : State} (h : s.cont = false) :
    respond v (emit q (enter q s))
      = { s with state := phaseCode q, ticks := 1#5, gate := lvl q, rsp := some v } := by
  simp only [emit_enter_eq, respond, h]

/-- What a TICK leaves that emits in its phase. -/
theorem InFlight.respond_emit {p : Phase} {s : State} (h : InFlight p s) (v : Word) :
    respond v (emit p s) = { s with ticks := s.ticks + 1#5, gate := lvl p, rsp := some v } := by
  have hle := h.le_dur
  have hd := dur_lt p
  have h31 : s.ticks ≠ 31#5 := by bv_omega
  simp only [emit_eq_of_ne_31 p s h31, respond, h.cont_eq]

/-- What a TICK leaves that enters data-mark: the next data-mark, or, at the end of the data under the default
parameter, the footer-mark (R69). -/
theorem respond_emit_after_space (v : Word) {s : State} (h : s.cont = false) :
    respond v (if s.index = 32#6 ∧ s.finalDmEmits = false then emit .fm (enter .fm (enter .dm s))
        else emit .dm (enter .dm s))
      = { s with
          state := if s.index = 32#6 ∧ s.finalDmEmits = false then phaseCode .fm else phaseCode .dm
          ticks := 1#5, gate := true, rsp := some v } := by
  split
  all_goals
    rw [emit_enter_eq]
    simp only [respond, enter, h]
    rfl

/-- Settles O22: `timedStep_eq`, and in flight the cascade of header-mark. -/
theorem headerMarkStep : Obligations.HeaderMarkStep := by
  refine ⟨decodePhase_phaseCode .hm, fun s => congrArg Host.Outcome.next (timedStep_eq .hm .hs s),
    fun s hinv hc hs => ?_⟩
  have h : InFlight .hm s := inFlight_of_code hinv hc hs
  rw [h.tick, cascade_hm s h.state_eq, apply_ite (respond 0#32), respond_emit_enter _ _ h.cont_eq, h.respond_emit]
  rfl

/-- Settles O23: `timedStep_eq`, and in flight the cascade of header-space, at index 0 far from the end of the data. -/
theorem headerSpaceStep : Obligations.HeaderSpaceStep := by
  refine ⟨decodePhase_phaseCode .hs, fun s => congrArg Host.Outcome.next (timedStep_eq .hs .dm s),
    fun s hinv hc hs => ?_⟩
  have h : InFlight .hs s := inFlight_of_code hinv hc hs
  have hi : s.index = 0#6 := by simpa [indexFits] using h.index_fits
  have hgoes : ¬(s.index = 32#6 ∧ s.finalDmEmits = false) := by simp [hi]
  refine ⟨hi, ?_⟩
  rw [h.tick, cascade_hs s h.state_eq, if_neg hgoes, apply_ite (respond 0#32), respond_emit_enter _ _ h.cont_eq,
    h.respond_emit]
  rfl

/-- The data space that a frame bit is sent as (R69). -/
def spacePhase (b : Bool) : Phase := if b then .dhs else .dls

/-- A cascade from a data-mark that has made its mark: the bit is counted and its data space entered (R69). -/
theorem cascade_dm_of_bit {s : State} (hs : s.state = phaseCode .dm) (ht : s.ticks = 1#5) (hi : s.index ≤ 31#6) :
    cascade cascadeBound s
      = emit (spacePhase (s.frame.getLsbD s.index.toNat))
          (enter (spacePhase (s.frame.getLsbD s.index.toNat)) { s with index := s.index + 1#6 }) := by
  have hne : s.index ≠ 32#6 := by bv_omega
  have h63 : s.index ≠ 63#6 := by bv_omega
  have hcount : countBit s = { s with index := s.index + 1#6 } := by simp [countBit, nextIndex, h63]
  rw [cascade_dm s hs, if_neg fun h => hne h.1, if_pos ht, frameBit_eq_getLsbD, hcount, spacePhase]
  split <;> rfl

/-- Settles O25: what `indexFits` says of data-mark, then the cascade of data-mark, at a bit and at the end of the
data. -/
theorem tickLeavesDataMark : Obligations.TickLeavesDataMark := by
  intro s hinv hc hs
  have h : InFlight .dm s := inFlight_of_code hinv hc hs
  have hfits : s.index ≤ 31#6 ∨ (s.finalDmEmits = true ∧ s.index = 32#6) := by simpa [indexFits] using h.index_fits
  refine ⟨hfits.imp_right And.symm, fun hi hb => ?_, fun hi hb => ?_, fun hi => ?_⟩
  · rw [h.tick, cascade_dm_of_bit h.state_eq (h.ticks_eq_one rfl) hi, hb,
      respond_emit_enter _ _ (s := { s with index := s.index + 1#6 }) h.cont_eq]
    rfl
  · rw [h.tick, cascade_dm_of_bit h.state_eq (h.ticks_eq_one rfl) hi, hb,
      respond_emit_enter _ _ (s := { s with index := s.index + 1#6 }) h.cont_eq]
    rfl
  · rw [h.tick, cascade_dm s h.state_eq, if_pos ⟨hi, .inr (h.ticks_eq_one rfl)⟩, respond_emit_enter _ _ h.cont_eq]
    rfl

/-- Settles O26: `timedStep_eq`, and in flight the cascade of data-high-space. -/
theorem dataHighSpaceStep : Obligations.DataHighSpaceStep := by
  refine ⟨decodePhase_phaseCode .dhs, fun s => congrArg Host.Outcome.next (timedStep_eq .dhs .dm s),
    fun s hinv hc hs => ?_⟩
  have h : InFlight .dhs s := inFlight_of_code hinv hc hs
  rw [h.tick, cascade_dhs s h.state_eq, apply_ite (respond 0#32), respond_emit_after_space _ h.cont_eq,
    h.respond_emit]
  rfl

/-- Settles O27: `timedStep_eq`, and in flight the cascade of data-low-space, whose one period has been made. -/
theorem dataLowSpaceStep : Obligations.DataLowSpaceStep := by
  refine ⟨decodePhase_phaseCode .dls, fun s => congrArg Host.Outcome.next (timedStep_eq .dls .dm s),
    fun s hinv hc hs => ?_⟩
  have h : InFlight .dls s := inFlight_of_code hinv hc hs
  rw [h.tick, cascade_dls s h.state_eq, if_pos (h.ticks_eq_one rfl), respond_emit_after_space _ h.cont_eq]
  rfl

/-- Settles O28: `timedStep_eq`, and in flight the cascade of footer-mark, whose one period has been made. -/
theorem footerMarkStep : Obligations.FooterMarkStep := by
  refine ⟨decodePhase_phaseCode .fm, fun s => congrArg Host.Outcome.next (timedStep_eq .fm .fs s),
    fun s hinv hc hs => ?_⟩
  have h : InFlight .fm s := inFlight_of_code hinv hc hs
  refine ⟨by simpa [indexFits] using h.index_fits, ?_⟩
  rw [h.tick, cascade_fm s h.state_eq, if_pos (h.ticks_eq_one rfl), respond_emit_enter _ _ h.cont_eq]
  rfl

/-! The pickup and the completion tick -/

/-- Under the invariants a deposited frame waits in the reset configuration (R30, R31). -/
theorem rest_of_ready {s : State} (h : inv s = true) (hr : s.ready = true) :
    s.completed = true ∧ s.state = phaseCode .hm ∧ s.ticks = 0#5 ∧ s.index = 0#6 ∧ s.gate = false := by
  obtain hrest | ⟨p, hp⟩ := rest_or_inFlight_of_inv h
  · exact hrest
  · exact Bool.noConfusion (hp.ready_eq.symm.trans hr)

/-- The pickup of a frame emits the first period of header-mark (R63). -/
theorem after_tick_of_ready {s : State} (h : inv s = true) (hr : s.ready = true) :
    after .tick s
      = { s with
          ready := false, completed := false, ticks := 1#5, gate := true, rsp := some 0#32, cont := false } := by
  obtain ⟨-, hs, ht, -⟩ := rest_of_ready h hr
  obtain ⟨hw, -⟩ | ⟨-, hr', -⟩ | ⟨-, -, htick⟩ := after_tick_cases s
  · simp [wf_of_inv h] at hw
  · simp [hr] at hr'
  · have htp : (pickup s).ticks ≠ 31#5 := by simp [ht]
    rw [htick, cascade_hm (pickup s) (by rwa [pickup_state]), if_neg (by simp [ht]), emit_eq_of_ne_31 _ _ htp,
      pickup_eq]
    simp [respond, hr, ht, lvl]

/-- A pickup leaves the TICK nothing of `ready` to see (R63). -/
theorem exec_tick_of_ready {s : State} (hwf : wf s = true) (hr : s.ready = true) :
    exec .tick s = exec .tick { s with ready := false, completed := false } := by
  have hwf' : wf { s with ready := false, completed := false } = true := hwf
  have hpickup : pickup s = { s with ready := false, completed := false } := by simp [pickup, hr]
  rw [exec_tick_of_not_completed hwf' rfl rfl]
  simp [exec, execTick, hwf, hpickup]

/-- Settles O21: `exec_tick_of_ready` for a well-formed state; under the invariants the block stands in the reset
configuration, and `after_tick_of_ready`. -/
theorem pickupStartsTheHeaderMark : Obligations.PickupStartsTheHeaderMark := by
  refine ⟨fun s => exec_tick_of_ready, fun s h hr => ?_⟩
  obtain ⟨-, hs, ht, hi, -⟩ := rest_of_ready h hr
  exact ⟨hs, ht, hi, (exec_eq_next_iff _ _ _).2 (after_tick_of_ready h hr)⟩

/-- The completion tick of a block in flight (R73). -/
theorem InFlight.tick_fs {s : State} (h : InFlight .fs s) : exec .tick s = .next (respond 0#32 (complete s)) := by
  rw [h.tick, cascade_fs s h.state_eq, if_pos (h.ticks_eq_one rfl)]

/-- A frame deposited in an idle block is picked up by the next TICK, which emits the first header-mark (R63). -/
theorem registers_tick_deposit_of_idle {s : State} (f : Frame) (h : inv s = true) (hidle : idle s = true) :
    registers (after .tick (after (.deposit f) s)) = ⟨phaseCode .hm, 1#5, 0#6, f, false, false, true⟩ := by
  have hinv := inv_after_deposit f h
  have hready : (after (.deposit f) s).ready = true := by rw [after_deposit_of_idle f s hidle]; rfl
  have hframe : (after (.deposit f) s).frame = f := by rw [after_deposit_of_idle f s hidle]; rfl
  obtain ⟨-, hs, -, hi, -⟩ := rest_of_ready hinv hready
  rw [after_tick_of_ready hinv hready]
  simp only [registers, hs, hi, hframe]

/-- Settles O29: the step of footer-space by its branches; in flight the completion tick, and the pickup of what is
deposited in the idle block it leaves. -/
theorem footerSpaceStep : Obligations.FooterSpaceStep := by
  refine ⟨decodePhase_phaseCode .fs, fun s => congrArg Host.Outcome.next (stepFs_eq s), fun s hinv hc hs => ?_⟩
  have h : InFlight .fs s := inFlight_of_code hinv hc hs
  have hafter : after .tick s = respond 0#32 (complete s) := (exec_eq_next_iff _ _ _).1 h.tick_fs
  refine ⟨h.ready_eq, ?_, fun f => registers_tick_deposit_of_idle f (inv_after_tick hinv) ?_⟩
  · rw [h.tick_fs]
    simp only [respond, complete, h.cont_eq]
    rfl
  · rw [hafter, idle_iff]
    exact ⟨rfl, h.ready_eq⟩

/-- Settles O30: the completion tick writes what INIT writes, but for `ready` and `gate`, which in flight at
footer-space are low already. -/
theorem completionEqualsInit : Obligations.CompletionEqualsInit := by
  intro s hinv hc hs
  have h : InFlight .fs s := inFlight_of_code hinv hc hs
  have hgate : s.gate = false := h.gate_eq
  have heq : exec .tick s = exec .init s := by
    rw [h.tick_fs]
    simp only [exec, execInit, respond, complete, h.ready_eq, hgate]
  refine ⟨heq, ?_⟩
  rw [(exec_eq_next_iff _ _ _).1 (heq.trans (exec_eq_after .init s))]
  rfl

/-! A TICK at rest, at the last bit, and in an ill-formed state -/

/-- Settles O20: a TICK at rest only responds, and the gate is low in the reset configuration. -/
theorem idleTickWritesNothing : Obligations.IdleTickWritesNothing := by
  refine ⟨fun s hwf hr hc => ?_, fun s h hc => ?_⟩
  · simp [exec, execTick, hwf, pickup_of_not_ready s hr, hc, respond]
  · obtain ⟨-, -, -, hg, -⟩ := (inv_of_completed s hc).1 h
    exact hg

/-- Settles O31: `cascade_dm_of_bit` at bit 31, which is 0. -/
theorem lastLowBitCascadesInOneTick : Obligations.LastLowBitCascadesInOneTick := by
  intro s hwf hr hc hs hi ht hb
  have hbit : s.frame.getLsbD s.index.toNat = false := by rw [hi]; exact hb
  rw [exec_tick_of_not_completed hwf hr hc, cascade_dm_of_bit hs ht (by rw [hi]; decide), hbit, hi]
  rfl

/-- The check of a TICK fails on the reserved code, on a count past the phase's duration and on an index past the
frame (R34, R65). -/
theorem wf_eq_false_of_corrupt {s : State}
    (h : s.state = 7#3 ∨ (∃ p, s.state = phaseCode p ∧ dur p < s.ticks) ∨ 32#6 < s.index) : wf s = false := by
  rw [← Bool.not_eq_true, wf_iff]
  rintro ⟨q, hq, hticks, hindex⟩
  obtain h7 | ⟨p, hp, hlt⟩ | hlt := h
  · have hcode := (phaseOfCode_eq_none _).2 (hq.symm.trans h7)
    simp at hcode
  · obtain rfl := phaseCode_inj p q (hp.symm.trans hq)
    exact BitVec.not_le.2 hlt hticks
  · exact BitVec.not_le.2 hlt hindex

/-- The info of CorruptState holds the three registers side by side (R9, R92). -/
theorem toNat_corruptInfo (s : State) :
    (corruptInfo s).toNat = s.state.toNat * 2 ^ 11 + s.ticks.toNat * 2 ^ 6 + s.index.toNat := by
  have hs := s.state.isLt
  have ht := s.ticks.isLt
  have hi := s.index.isLt
  have hsWide : (s.state.setWidth 14).toNat = s.state.toNat := BitVec.toNat_setWidth_of_le (by decide)
  have htWide : (s.ticks.setWidth 14).toNat = s.ticks.toNat := BitVec.toNat_setWidth_of_le (by decide)
  have hiWide : (s.index.setWidth 14).toNat = s.index.toNat := BitVec.toNat_setWidth_of_le (by decide)
  have hlow := toNat_shiftLeft_or (s.ticks.setWidth 14) (s.index.setWidth 14) 6 (by omega) (by omega)
  rw [corruptInfo, BitVec.or_assoc, toNat_shiftLeft_or _ _ 11 (by omega) (by omega), hlow]
  omega

/-- Settles O19: such a state fails the check, so the TICK only raises. -/
theorem tickRaisesCorruptState : Obligations.TickRaisesCorruptState := by
  intro s h
  refine ⟨corruptInfo s, toNat_corruptInfo s, rfl, ?_⟩
  rw [exec, execTick, if_pos (wf_eq_false_of_corrupt h)]
  rfl

/-! The pin (R75) -/

/-- Settles O50: the pin is the conjunction of gate and carrier. -/
theorem pinFollowsTheGate : Obligations.PinFollowsTheGate :=
  fun s carrier => ⟨fun hg => by rw [irOut, hg, Bool.true_and], fun hg => by rw [irOut, hg, Bool.false_and]⟩

end Sys2Proof.Machine
end

section
/-! The cascade as phase steps (40_encoder.md R66, R80): the open cascade that refines a TICK, the transitions a TICK
makes, and the frames of a phase step and of a TICK. -/

namespace Sys2Proof.Machine

open Sys2Proof.Safety

/-! A cascade taken one step at a time -/

/-- No phase step reads whether a cascade is open (R67 to R73). -/
theorem phaseStep_open (p : Phase) (s : State) (b : Bool) : phaseStep p { s with cont := b } = phaseStep p s := by
  cases p <;> rfl

theorem cascade_open {n : Nat} {p : Phase} {s : State} (h : s.state = phaseCode p) (b : Bool) :
    cascade (n + 1) { s with cont := b } = cascade (n + 1) s := by
  rw [cascade_succ n p s h, cascade_succ n p { s with cont := b } h, phaseStep_open]

/-- A cascade on the reserved code 7 stands still (R58). -/
theorem cascade_of_reserved (n : Nat) (s : State) (h : phaseOfCode s.state = none) : cascade n s = s := by
  cases n with
  | zero => rfl
  | succ n => simp [cascade, h]

/-- An open cascade that ends stands at a phase (R58, R66). -/
theorem exists_phase_of_cascade_done {n : Nat} {s : State} (ho : s.cont = true) (hd : (cascade n s).cont = false) :
    ∃ p, s.state = phaseCode p := by
  cases hp : phaseOfCode s.state with
  | none =>
    rw [cascade_of_reserved n s hp] at hd
    exact Bool.noConfusion (hd.symm.trans ho)
  | some p => exact ⟨p, (phaseOfCode_eq_some _ _).1 hp⟩

/-- Where an open cascade ends within a bound, a larger bound changes nothing (R66, R80). -/
theorem cascade_add_of_done {n : Nat} {s : State} (m : Nat) (ho : s.cont = true) (hd : (cascade n s).cont = false) :
    cascade (n + m) s = cascade n s := by
  induction n generalizing s with
  | zero => exact Bool.noConfusion (hd.symm.trans ho)
  | succ n ih =>
    obtain ⟨p, hp⟩ := exists_phase_of_cascade_done ho hd
    rw [cascade_succ n p s hp] at hd ⊢
    rw [Nat.add_right_comm, cascade_succ (n + m) p s hp]
    split
    next hc =>
      rw [if_pos hc] at hd
      exact ih hc hd
    next => rfl

theorem run_succ {s t : State} (k : Nat) (h : step s = .next t) :
    Host.Core.run core (k + 1) s = Host.Core.run core k t := by
  have h' : core.step s = .next t := h
  simp only [Host.Core.run, h']

/-- The small steps of an open cascade that ends within `n` phase steps come to what the cascade comes to, with the
TICK's response (R39, R66). -/
theorem run_of_open_cascade {n : Nat} {s : State} (ho : s.cont = true) (hd : (cascade n s).cont = false) :
    ∃ k, 1 ≤ k ∧ k ≤ n ∧ Host.Core.run core k s = .next (respond 0#32 (cascade n s)) := by
  induction n generalizing s with
  | zero => exact Bool.noConfusion (hd.symm.trans ho)
  | succ n ih =>
    obtain ⟨p, hp⟩ := exists_phase_of_cascade_done ho hd
    have hstep := step_of_open_cascade p s ho hp
    rw [cascade_succ n p s hp] at hd ⊢
    split at hd
    next hc =>
      rw [if_pos hc] at hstep ⊢
      obtain ⟨k, -, hkn, hrun⟩ := ih hc hd
      exact ⟨k + 1, by omega, by omega, (run_succ k hstep).trans hrun⟩
    next hc =>
      rw [if_neg hc, ← respond_of_not_cont _ _ hd] at hstep
      rw [if_neg hc]
      exact ⟨1, le_rfl, by omega, run_succ 0 hstep⟩

/-- Settles O12: the TICK is a cascade from the picked-up state, which ends within its bound (`cascade_done`) and is the
same with the cascade open, so `run_of_open_cascade`. -/
theorem phaseStepsRefineTick : Obligations.PhaseStepsRefineTick := by
  intro s hwf hbusy
  obtain ⟨p, hs, -⟩ := (wf_iff s).1 hwf
  have hp : (pickup s).state = phaseCode p := by rwa [pickup_state]
  have hopen : cascade cascadeBound { pickup s with cont := true } = cascade cascadeBound (pickup s) :=
    cascade_open hp true
  have htick : exec .tick s = .next (respond 0#32 (cascade cascadeBound (pickup s))) := by
    obtain ⟨hw, -⟩ | ⟨-, hr, hc, -⟩ | ⟨-, -, ht⟩ := execTick_cases s
    · simp [hwf] at hw
    · simp [hr, hc] at hbusy
    · exact ht
  have hdone : (cascade cascadeBound { pickup s with cont := true }).cont = false := hopen ▸ cascade_done _ p hp
  rw [htick, ← hopen]
  exact run_of_open_cascade rfl hdone

/-! The transitions of a cascade (R80) -/

theorem transitions_succ (n : Nat) (p : Phase) (s : State) (h : s.state = phaseCode p) :
    transitions (n + 1) s = if (phaseStep p s).cont then 1 + transitions n (phaseStep p s) else 0 := by
  simp [transitions, h]

/-- A phase step that answers DONE makes no transition. -/
theorem transitions_of_done (n : Nat) (p : Phase) (s : State) (h : s.state = phaseCode p)
    (hd : (phaseStep p s).cont = false) : transitions n s = 0 := by
  cases n with
  | zero => rfl
  | succ n => rw [transitions_succ n p s h, hd, if_neg nofun]

/-- A phase step that enters a phase makes one transition, and the cascade goes on from there. -/
theorem transitions_of_enter (n : Nat) (p q : Phase) (s t : State) (h : s.state = phaseCode p)
    (he : phaseStep p s = enter q t) : transitions n s ≤ 1 + transitions (n - 1) (enter q t) := by
  cases n with
  | zero => exact Nat.zero_le _
  | succ n => rw [transitions_succ n p s h, he, enter_cont, if_pos rfl, Nat.add_sub_cancel]

/-- A phase just entered whose duration counts makes no transition (R66). -/
theorem transitions_enter_of_ne_dm (n : Nat) (q : Phase) (s : State) (hq : q ≠ .dm) :
    transitions n (enter q s) = 0 := by
  refine transitions_of_done n q _ rfl ?_
  cases q with
  | dm => exact absurd rfl hq
  | _ => rfl

/-- Data-mark just entered makes a transition only at the end of the data under the default parameter, and then one
(R69). -/
theorem transitions_enter_dm (n : Nat) (s : State) :
    transitions n (enter .dm s) = 0
    ∨ (transitions n (enter .dm s) ≤ 1 ∧ s.index = 32#6 ∧ s.finalDmEmits = false) := by
  by_cases hend : s.index = 32#6 ∧ s.finalDmEmits = false
  · have h := transitions_of_enter n .dm .fm (enter .dm s) (enter .dm s) rfl (stepDm_of_end hend.1 (.inl hend.2))
    rw [transitions_enter_of_ne_dm _ .fm _ nofun] at h
    exact .inr ⟨h, hend⟩
  · have hgoes : s.index ≠ 32#6 ∨ s.finalDmEmits = true := by simpa [Decidable.imp_iff_not_or] using hend
    have hmark : phaseStep .dm (enter .dm s) = emit .dm (enter .dm s) := stepDm_of_mark (s := enter .dm s) hgoes nofun
    exact .inl (transitions_of_done n .dm _ rfl (by rw [hmark, emit_cont]))

/-- From a phase that counts its duration and is not followed by data-mark: one transition at most. -/
theorem transitions_timed_of_ne_dm (n : Nat) (p q : Phase) (s : State) (hs : s.state = phaseCode p)
    (h : phaseStep p s = timedStep p q s) (hq : q ≠ .dm) : transitions n s ≤ 1 := by
  obtain ⟨-, he⟩ | ⟨-, he⟩ := timedStep_cases p q s
  · have hle := transitions_of_enter n p q s s hs (h.trans he)
    rwa [transitions_enter_of_ne_dm _ q s hq] at hle
  · rw [transitions_of_done n p s hs (by rw [h, he, emit_cont])]
    exact Nat.zero_le 1

/-- From a phase that counts its duration and is followed by data-mark: a second transition only at the end of the data
under the default parameter. -/
theorem transitions_timed_dm (n : Nat) (p : Phase) (s : State) (hs : s.state = phaseCode p)
    (h : phaseStep p s = timedStep p .dm s) :
    transitions n s ≤ 1 ∨ (transitions n s ≤ 2 ∧ s.index = 32#6 ∧ s.finalDmEmits = false) := by
  obtain ⟨-, he⟩ | ⟨-, he⟩ := timedStep_cases p .dm s
  · have hle := transitions_of_enter n p .dm s s hs (h.trans he)
    exact (transitions_enter_dm (n - 1) s).imp (fun h0 => by omega) fun h1 => ⟨by omega, h1.2⟩
  · exact .inl (by rw [transitions_of_done n p s hs (by rw [h, he, emit_cont])]; exact Nat.zero_le 1)

/-- Data-mark emits, or enters a phase other than itself (R69). -/
theorem stepDm_cases (s : State) : stepDm s = emit .dm s ∨ ∃ q t, q ≠ .dm ∧ stepDm s = enter q t := by
  unfold stepDm
  split
  · exact .inr ⟨.fm, s, nofun, rfl⟩
  · split
    · split
      · exact .inr ⟨.dhs, countBit s, nofun, rfl⟩
      · exact .inr ⟨.dls, countBit s, nofun, rfl⟩
    · exact .inl rfl

/-- From data-mark one transition at most: a data space and footer-mark both emit when entered (R69). -/
theorem transitions_dm (n : Nat) (s : State) (hs : s.state = phaseCode .dm) : transitions n s ≤ 1 := by
  obtain he | ⟨q, t, hq, he⟩ := stepDm_cases s
  · rw [transitions_of_done n .dm s hs (by rw [phaseStep, he, emit_cont])]
    exact Nat.zero_le 1
  · have hle := transitions_of_enter n .dm q s t hs he
    rwa [transitions_enter_of_ne_dm _ q t hq] at hle

/-- Footer-space makes no transition: it emits, or completes (R73). -/
theorem transitions_fs (n : Nat) (s : State) (hs : s.state = phaseCode .fs) : transitions n s = 0 := by
  refine transitions_of_done n .fs s hs ?_
  rw [phaseStep, stepFs]
  split <;> rfl

/-- Under the invariants a TICK makes one transition at most, but from a data space at the end of the data under the
default parameter, where it makes two at most (R80). -/
theorem transitions_le {s : State} (n : Nat) (h : inv s = true) :
    transitions n s ≤ 1
    ∨ (transitions n s ≤ 2 ∧ s.index = 32#6 ∧ s.finalDmEmits = false
      ∧ (s.state = phaseCode .dhs ∨ s.state = phaseCode .dls)) := by
  obtain ⟨-, hs, -⟩ | ⟨p, hp⟩ := rest_or_inFlight_of_inv h
  · exact .inl (transitions_timed_of_ne_dm n .hm .hs s hs rfl nofun)
  · have hs := hp.state_eq
    cases p with
    | hm => exact .inl (transitions_timed_of_ne_dm n .hm .hs s hs rfl nofun)
    | hs =>
      have hi : s.index = 0#6 := by simpa [indexFits] using hp.index_fits
      exact (transitions_timed_dm n .hs s hs rfl).imp_right fun h2 => by simp [hi] at h2
    | dm => exact .inl (transitions_dm n s hs)
    | dhs => exact (transitions_timed_dm n .dhs s hs rfl).imp_right fun ⟨h2, hi, hf⟩ => ⟨h2, hi, hf, .inl hs⟩
    | dls => exact (transitions_timed_dm n .dls s hs rfl).imp_right fun ⟨h2, hi, hf⟩ => ⟨h2, hi, hf, .inr hs⟩
    | fm => exact .inl (transitions_timed_of_ne_dm n .fm .fs s hs rfl nofun)
    | fs => exact .inl (by rw [transitions_fs n s hs]; exact Nat.zero_le 1)

/-- The bound of a cascade is no limit where the code names a phase (R80). -/
theorem cascade_bound_add {p : Phase} {s : State} (n : Nat) (h : s.state = phaseCode p) :
    cascade (cascadeBound + n) s = cascade cascadeBound s := by
  have hopen : cascade cascadeBound { s with cont := true } = cascade cascadeBound s := cascade_open h true
  have hbound : cascadeBound + n = (2 + n) + 1 := by rw [cascadeBound]; omega
  have hdone : (cascade cascadeBound { s with cont := true }).cont = false := hopen ▸ cascade_done s p h
  calc cascade (cascadeBound + n) s
    _ = cascade (cascadeBound + n) { s with cont := true } := by rw [hbound, cascade_open h true]
    _ = cascade cascadeBound { s with cont := true } := cascade_add_of_done n rfl hdone
    _ = cascade cascadeBound s := hopen

/-- Settles O47: `transitions_le` under the invariants, and `cascade_bound_add` in every state but at code 7. -/
theorem cascadeWorkIsBounded : Obligations.CascadeWorkIsBounded := by
  refine ⟨fun n s h => ?_, fun n s h7 => ?_⟩
  · obtain h1 | ⟨h2, hend⟩ := transitions_le n h
    · exact ⟨by omega, fun h2 => by omega⟩
    · exact ⟨h2, fun _ => hend⟩
  · obtain ⟨p, hp⟩ := Option.ne_none_iff_exists'.1 (mt (phaseOfCode_eq_none s.state).1 h7)
    exact cascade_bound_add n ((phaseOfCode_eq_some _ _).1 hp)

/-! The frame of a phase step -/

/-- Settles O33: the four things a phase step can do (`phaseStep_cases`). -/
theorem phaseStepFrame : Obligations.PhaseStepFrame := by
  intro p s t ht
  rw [exec_eq_next_iff, after_phaseInstr] at ht
  subst ht
  obtain ⟨hne, he⟩ | ⟨-, q, he⟩ | ⟨hp, -, -, he⟩ | ⟨hp, ht, he⟩ := phaseStep_cases p s
  · rw [he]
    have hfs : ¬(p = .fs ∧ s.ticks = 1) := fun ⟨hp, h1⟩ => hne (hp ▸ h1)
    exact ⟨rfl, rfl, rfl, rfl, rfl, fun _ => ⟨rfl, rfl⟩, fun _ => rfl, fun _ _ => rfl,
      fun h => h.elim nofun fun h => absurd h hfs, fun _ _ => rfl, fun h31 _ => if_neg h31⟩
  · rw [he]
    exact ⟨rfl, rfl, rfl, rfl, rfl, fun _ => ⟨rfl, rfl⟩, fun _ => rfl, fun _ _ => rfl, fun _ => rfl, nofun,
      fun _ _ => rfl⟩
  · rw [he]
    have hfm : ¬(phaseCode (if frameBit s.frame s.index then .dhs else .dls) = phaseCode .fm) := by
      split <;> decide
    exact ⟨rfl, rfl, rfl, rfl, rfl, fun _ => ⟨rfl, rfl⟩, fun h => absurd hp h.1,
      fun _ h => h.elim nofun fun h => absurd h hfm, fun _ => rfl, nofun, fun _ h63 => if_neg h63⟩
  · rw [he]
    exact ⟨rfl, rfl, rfl, rfl, rfl, fun h => absurd ⟨hp, ht⟩ h, fun h => absurd ⟨hp, ht⟩ h.2,
      fun h => by simp [hp] at h, fun _ => rfl, fun _ h => absurd ⟨hp, ht⟩ h, fun _ _ => rfl⟩

/-! The frame of a TICK -/

/-- A cascade writes neither the fault record nor the listed events (R66). -/
theorem cascade_faults_events (p : Phase) (s : State) (h : s.state = phaseCode p) :
    (cascade cascadeBound s).faults = s.faults ∧ (cascade cascadeBound s).events = s.events := by
  obtain ⟨-, hc⟩ | ⟨-, q, -, hc⟩ | ⟨-, -, -, q, -, hc⟩ | ⟨-, -, hc⟩ := cascade_cases p s h
  all_goals
    rw [hc]
    exact ⟨rfl, rfl⟩

/-- A cascade draws no free value in a well-formed state, where every count fits its width (R16, R17). -/
theorem cascade_draws {p : Phase} {s : State} (h : s.state = phaseCode p) (ht : s.ticks ≤ dur p)
    (hi : s.index ≤ 32#6) : (cascade cascadeBound s).draws = s.draws := by
  obtain ⟨-, hc⟩ | ⟨-, q, -, hc⟩ | ⟨-, -, -, q, -, hc⟩ | ⟨-, -, hc⟩ := cascade_cases p s h
  all_goals rw [hc]
  · exact emit_draws_of_le s p p ht
  · rfl
  · have h63 : s.index ≠ 63#6 := by bv_omega
    exact if_neg h63
  · rfl

/-- A cascade leaves `index`, counts the bit data-mark reads, or completes the frame (R69, R73). -/
theorem cascade_index {p : Phase} {s : State} (h : s.state = phaseCode p) (hi : s.index ≤ 32#6) :
    (cascade cascadeBound s).index = s.index
    ∨ (p = .dm ∧ (cascade cascadeBound s).index = s.index + 1#6)
    ∨ (p = .fs ∧ cascade cascadeBound s = complete s) := by
  obtain ⟨-, hc⟩ | ⟨-, q, -, hc⟩ | ⟨hp, -, -, q, -, hc⟩ | ⟨hp, -, hc⟩ := cascade_cases p s h
  · exact .inl (hc ▸ rfl)
  · exact .inl (hc ▸ rfl)
  · refine .inr (.inl ⟨hp, ?_⟩)
    rw [hc, ← nextIndex_of_le s hi]
    rfl
  · exact .inr (.inr ⟨hp, hc⟩)

/-- Settles O32: a TICK raises, only responds, or is one cascade (`after_tick_cases`), of which the rules above say
what each register keeps. -/
theorem tickFrame : Obligations.TickFrame := by
  intro s t ht
  rw [exec_eq_next_iff] at ht
  subst ht
  obtain ⟨hw, ht⟩ | ⟨hw, hr, -, ht⟩ | ⟨hw, hbusy, ht⟩ := after_tick_cases s
  · rw [ht]
    exact ⟨rfl, rfl, rfl, fun _ => ⟨rfl, rfl⟩, fun h => Bool.noConfusion (hw.symm.trans h), fun _ _ => rfl,
      .inl rfl, .inl rfl⟩
  · rw [ht]
    exact ⟨rfl, rfl, rfl, fun _ => ⟨rfl, rfl⟩, fun _ => ⟨rfl, rfl, hr⟩, fun _ _ => rfl, .inl rfl, .inl rfl⟩
  · obtain ⟨p, hp, hticks, hindex⟩ := (wf_iff s).1 hw
    have hs : (pickup s).state = phaseCode p := by rwa [pickup_state]
    obtain ⟨hfaults, hevents⟩ := cascade_faults_events p (pickup s) hs
    have hdraws := cascade_draws hs (by rwa [pickup_ticks]) (by rwa [pickup_index])
    have hready := cascade_ready p (pickup s) hs
    have hframe := cascade_frame p (pickup s) hs
    have hidx := cascade_index hs (by rwa [pickup_index])
    simp only [pickup_faults, pickup_events, pickup_draws, pickup_ready, pickup_frame, pickup_index]
      at hfaults hevents hdraws hready hframe hidx
    rw [ht]
    refine ⟨hevents, by simp, rfl, fun h => Bool.noConfusion (h.symm.trans hw), fun _ => ⟨hfaults, hdraws, hready⟩,
      fun hr hc => by simp [hr, hc] at hbusy, ?_, ?_⟩
    · obtain hkept | ⟨rfl, hc⟩ := hframe
      · exact .inl hkept
      · exact .inr ⟨hp, hc ▸ rfl, hc ▸ rfl⟩
    · obtain hkept | ⟨rfl, hcount⟩ | ⟨rfl, hc⟩ := hidx
      · exact .inl hkept
      · exact .inr (.inl ⟨hp, hcount⟩)
      · exact .inr (.inr ⟨hp, hc ▸ rfl, hc ▸ rfl⟩)

end Sys2Proof.Machine
end

section
/-! The pulse train of a frame (40_encoder.md R76, R77): the counts of its table, and the TICKs of a deposited frame,
phase by phase and bit by bit, up to its completion. -/

namespace Sys2Proof.Machine

open Sys2Proof.Safety

/-! The counts of the table (R77) -/

/-- The periods of bit `k`: one data-mark, and its data space for the duration of that phase (R76). -/
def bitTrace (f : Frame) (k : Nat) : List (PhaseCode × Bool) :=
  (phaseCode .dm, true)
    :: List.replicate (dur (spacePhase (f.getLsbD k))).toNat
        (phaseCode (spacePhase (f.getLsbD k)), lvl (spacePhase (f.getLsbD k)))

/-- The periods of a list of bits, one after another. -/
def dataTrace (f : Frame) (ks : List Nat) : List (PhaseCode × Bool) := ks.flatMap (bitTrace f)

/-- The periods after the data: with FINAL_DM_EMITS one more data-mark, then the footer (R76). -/
def tailTrace (b : Bool) : List (PhaseCode × Bool) :=
  (if b then [(phaseCode .dm, true)] else []) ++ [(phaseCode .fm, true), (phaseCode .fs, false)]

/-- The table of R76 by its parts: header, data, tail. -/
theorem frameTrace_eq (b : Bool) (f : Frame) :
    frameTrace b f
      = List.replicate 16 (phaseCode .hm, true) ++ (List.replicate 8 (phaseCode .hs, false)
        ++ (dataTrace f (List.range 32) ++ tailTrace b)) := by
  have hbit : (fun k => (phaseCode .dm, true) :: List.replicate (spacePeriods f k)
      (if f.getLsbD k then phaseCode .dhs else phaseCode .dls, false)) = bitTrace f := by
    funext k
    cases h : f.getLsbD k <;> simp [bitTrace, spacePeriods, spacePhase, dur, lvl, h]
  rw [frameTrace, hbit, dataTrace, tailTrace]
  simp only [List.append_assoc]

theorem dataTrace_cons (f : Frame) (k : Nat) (ks : List Nat) :
    dataTrace f (k :: ks) = bitTrace f k ++ dataTrace f ks := rfl

/-- A list of `m` bits has one mark per bit, and a space per bit and two more per 1 bit (R76). -/
theorem dataTrace_counts (f : Frame) (ks : List Nat) :
    (dataTrace f ks).countP (fun x => x.2) = ks.length
    ∧ (dataTrace f ks).countP (fun x => !x.2) = ks.length + 2 * ks.countP (fun k => f.getLsbD k) := by
  induction ks with
  | nil => exact ⟨rfl, rfl⟩
  | cons k ks ih =>
    obtain ⟨hmarks, hspaces⟩ := ih
    rw [dataTrace_cons, List.countP_append, List.countP_append, hmarks, hspaces, List.countP_cons]
    cases h : f.getLsbD k <;> simp [bitTrace, spacePhase, dur, lvl, h] <;> omega

/-- The marks and the spaces of the whole table (R77). -/
theorem frameTrace_counts (b : Bool) (f : Frame) :
    (frameTrace b f).countP (fun x => x.2) = (if b then 50 else 49)
    ∧ (frameTrace b f).countP (fun x => !x.2) = 41 + 2 * popcount f := by
  obtain ⟨hmarks, hspaces⟩ := dataTrace_counts f (List.range 32)
  rw [List.length_range] at hmarks hspaces
  rw [frameTrace_eq, popcount]
  simp only [List.countP_append, hmarks, hspaces]
  cases b <;> simp [tailTrace] <;> omega

/-- Every period is a mark or a space, so the table has `90 + 2n` periods, one more with FINAL_DM_EMITS (R77). -/
theorem length_frameTrace (b : Bool) (f : Frame) : (frameTrace b f).length = emissions b f := by
  obtain ⟨hmarks, hspaces⟩ := frameTrace_counts b f
  have hsplit := List.length_eq_countP_add_countP (fun x : PhaseCode × Bool => x.2) (l := frameTrace b f)
  simp only [Bool.not_eq_true, Bool.decide_eq_false] at hsplit
  rw [hsplit, hmarks, hspaces, emissions]
  split <;> omega

theorem emissions_false (f : Frame) : emissions false f = 90 + 2 * popcount f := rfl

theorem popcount_le (f : Frame) : popcount f ≤ 32 := by
  simpa [popcount] using List.countP_le_length (p := fun k => f.getLsbD k) (l := List.range 32)

/-- Settles O45: `length_frameTrace` and `frameTrace_counts`, and a frame has at most 32 one bits. -/
theorem pulseTrainCounts : Obligations.PulseTrainCounts := by
  intro b f
  obtain ⟨hmarks, hspaces⟩ := frameTrace_counts b f
  have hpop := popcount_le f
  rw [emissions_false]
  exact ⟨length_frameTrace b f, hmarks, hspaces, by omega, by omega⟩

/-! The one bits of an assembled frame (R56) -/

theorem assemble_getLsbD_address (a : BitVec 16) (c : BitVec 8) {k : Nat} (hk : k < 16) :
    (assemble a c).getLsbD k = a.getLsbD k := by
  have h24 : k < 24 := by omega
  have h32 : k < 32 := by omega
  simp [assemble, hk, h24, h32]

theorem assemble_getLsbD_command (a : BitVec 16) (c : BitVec 8) {k : Nat} (hk : k < 8) :
    (assemble a c).getLsbD (16 + k) = c.getLsbD k := by
  have h24 : 16 + k < 24 := by omega
  have h32 : 16 + k < 32 := by omega
  simp [assemble, h24, h32]

theorem assemble_getLsbD_complement (a : BitVec 16) (c : BitVec 8) {k : Nat} (hk : k < 8) :
    (assemble a c).getLsbD (24 + k) = !c.getLsbD k := by
  have h32 : 24 + k < 32 := by omega
  have ha : a.getLsbD (24 + k) = false := BitVec.getLsbD_of_ge _ _ (by omega)
  have hc : c.getLsbD (24 + k - 16) = false := BitVec.getLsbD_of_ge _ _ (by omega)
  simp [assemble, h32, hk, ha, hc]

/-- The command and its complement have 8 one bits together. -/
theorem countP_command_add_complement (c : BitVec 8) :
    (List.range 8).countP (fun k => c.getLsbD k) + (List.range 8).countP (fun k => !c.getLsbD k) = 8 := by
  have h := List.length_eq_countP_add_countP (fun k => c.getLsbD k) (l := List.range 8)
  simp only [Bool.not_eq_true, Bool.decide_eq_false] at h
  rw [← h, List.length_range]

/-- An assembled frame has 8 one bits beside those of its address (R77). -/
theorem popcount_assemble (a : BitVec 16) (c : BitVec 8) :
    popcount (assemble a c) = (List.range 16).countP (fun k => a.getLsbD k) + 8 := by
  have hbits : List.range 32
      = List.range 16 ++ (List.range 8).map (16 + ·) ++ (List.range 8).map (24 + ·) := by decide
  have ha : (List.range 16).countP (fun k => (assemble a c).getLsbD k)
      = (List.range 16).countP (fun k => a.getLsbD k) :=
    List.countP_congr fun k hk => by
      rw [assemble_getLsbD_address a c (List.mem_range.1 hk)]
  have hc : (List.range 8).countP ((fun k => (assemble a c).getLsbD k) ∘ (16 + ·))
      = (List.range 8).countP (fun k => c.getLsbD k) :=
    List.countP_congr fun k hk => by
      rw [Function.comp_apply, assemble_getLsbD_command a c (List.mem_range.1 hk)]
  have hn : (List.range 8).countP ((fun k => (assemble a c).getLsbD k) ∘ (24 + ·))
      = (List.range 8).countP (fun k => !c.getLsbD k) :=
    List.countP_congr fun k hk => by
      rw [Function.comp_apply, assemble_getLsbD_complement a c (List.mem_range.1 hk)]
  rw [popcount, hbits, List.countP_append, List.countP_append, List.countP_map, List.countP_map, ha, hc, hn,
    Nat.add_assoc, countP_command_add_complement]

/-- Settles O46: `popcount_assemble`. -/
theorem assembledFrameLength : Obligations.AssembledFrameLength := by
  intro a c
  have h := popcount_assemble a c
  exact ⟨h, by rw [emissions_false, h]; omega⟩

/-! TICKs that show a list of periods -/

/-- From `s` the next TICKs show the periods `l`, a frame in flight after each, and come to `t`. -/
inductive Emits : State → List (PhaseCode × Bool) → State → Prop
  | nil (s : State) : Emits s [] s
  | cons {s t : State} {l : List (PhaseCode × Bool)} (hc : (after .tick s).completed = false)
      (h : Emits (after .tick s) l t) : Emits s (((after .tick s).state, (after .tick s).gate) :: l) t

theorem Emits.append {s t u : State} {l m : List (PhaseCode × Bool)} (h : Emits s l t) (h' : Emits t m u) :
    Emits s (l ++ m) u := by
  induction h with
  | nil => exact h'
  | cons hc _ ih => exact .cons hc (ih h')

theorem Emits.periods_eq {s t : State} {l : List (PhaseCode × Bool)} (h : Emits s l t) :
    periods l.length s = l := by
  induction h with
  | nil => rfl
  | cons _ _ ih => rw [List.length_cons, periods, ih]

theorem Emits.ticksFrom_eq {s t : State} {l : List (PhaseCode × Bool)} (h : Emits s l t) :
    ticksFrom l.length s = t := by
  induction h with
  | nil => rfl
  | cons _ _ ih => rw [List.length_cons, ticksFrom, ih]

theorem Emits.completed_eq {s t : State} {l : List (PhaseCode × Bool)} (h : Emits s l t) (k : Nat) (hk : 1 ≤ k)
    (hl : k ≤ l.length) : (ticksFrom k s).completed = false := by
  induction h generalizing k with
  | nil => exact absurd (hk.trans hl) (by decide)
  | cons hc _ ih =>
    obtain ⟨k, rfl⟩ := Nat.exists_eq_add_one.2 hk
    cases k with
    | zero => exact hc
    | succ k => exact ih (k + 1) (by omega) (Nat.le_of_succ_le_succ hl)

theorem ticksFrom_succ (n : Nat) (s : State) : ticksFrom (n + 1) s = after .tick (ticksFrom n s) := by
  induction n generalizing s with
  | zero => rfl
  | succ n ih => exact ih (after .tick s)

/-! A block in flight with the frame of `s` -/

/-- The block in flight with the frame, the parameter and the record of `s`: at phase `p`, of which it has made `t`
emissions, with `index` at `i`. -/
def flight (s : State) (p : Phase) (t : TickCount) (i : BitIndex) : State :=
  { s with
    state := phaseCode p, ticks := t, index := i, ready := false, completed := false, gate := lvl p
    rsp := some 0#32, cont := false }

@[simp] theorem flight_index (s : State) (p : Phase) (t : TickCount) (i : BitIndex) : (flight s p t i).index = i := rfl
@[simp] theorem flight_frame (s : State) (p : Phase) (t : TickCount) (i : BitIndex) :
    (flight s p t i).frame = s.frame := rfl
@[simp] theorem flight_finalDmEmits (s : State) (p : Phase) (t : TickCount) (i : BitIndex) :
    (flight s p t i).finalDmEmits = s.finalDmEmits := rfl

theorem after_tick_flight (s : State) {p : Phase} {t : TickCount} {i : BitIndex} (ht : t ≤ dur p) (hi : i ≤ 32#6) :
    after .tick (flight s p t i) = respond 0#32 (cascade cascadeBound (flight s p t i)) :=
  (exec_eq_next_iff _ _ _).1 (exec_tick_of_not_completed ((wf_iff _).2 ⟨p, rfl, ht, hi⟩) rfl rfl)

/-- Within its duration every phase emits (R67 to R73). -/
theorem phaseStep_of_lt_dur {p : Phase} {s : State} (h1 : 1#5 ≤ s.ticks) (ht : s.ticks < dur p) :
    phaseStep p s = emit p s := by
  have hne : s.ticks ≠ dur p := BitVec.ne_of_lt ht
  cases p with
  | dm => exact absurd ht (BitVec.not_lt.2 h1)
  | fs => exact absurd ht (BitVec.not_lt.2 h1)
  | _ => exact if_neg hne

theorem after_tick_flight_of_lt (s : State) {p : Phase} {t : TickCount} {i : BitIndex} (h1 : 1#5 ≤ t) (ht : t < dur p)
    (hi : i ≤ 32#6) : after .tick (flight s p t i) = flight s p (t + 1#5) i := by
  have hd := dur_lt p
  have h31 : t ≠ 31#5 := by bv_omega
  have hstep : phaseStep p (flight s p t i) = emit p (flight s p t i) := phaseStep_of_lt_dur h1 ht
  rw [after_tick_flight s (BitVec.le_of_lt ht) hi, cascadeBound, cascade_emit 2 p _ rfl hstep,
    emit_eq_of_ne_31 p _ h31]
  rfl

theorem emits_one {s s₀ : State} {p : Phase} {t : TickCount} {i : BitIndex} (h : after .tick s₀ = flight s p t i) :
    Emits s₀ [(phaseCode p, lvl p)] (flight s p t i) := by
  have hcons := Emits.cons (s := s₀) (l := []) (t := flight s p t i) (by rw [h]; rfl) (h ▸ .nil _)
  rwa [h] at hcons

/-- A phase that a TICK has entered is held for any number of emissions within its duration (R66). -/
theorem emits_replicate {s s₀ : State} {p : Phase} {i : BitIndex} (h : after .tick s₀ = flight s p 1#5 i)
    (hi : i ≤ 32#6) (n : Nat) (hn : n < (dur p).toNat) :
    Emits s₀ (List.replicate (n + 1) (phaseCode p, lvl p)) (flight s p (BitVec.ofNat 5 (n + 1)) i) := by
  induction n with
  | zero => exact emits_one h
  | succ n ih =>
    have hd := (dur p).isLt
    have hnext : after .tick (flight s p (BitVec.ofNat 5 (n + 1)) i) = flight s p (BitVec.ofNat 5 (n + 2)) i := by
      rw [after_tick_flight_of_lt s (by bv_omega) (by bv_omega) hi, ← BitVec.ofNat_add]
    rw [List.replicate_succ']
    exact (ih (by omega)).append (emits_one hnext)

/-- A phase that a TICK has entered is held for its whole duration (R66). -/
theorem emits_phase {s s₀ : State} {p : Phase} {i : BitIndex} (h : after .tick s₀ = flight s p 1#5 i)
    (hi : i ≤ 32#6) :
    Emits s₀ (List.replicate (dur p).toNat (phaseCode p, lvl p)) (flight s p (dur p) i) := by
  have hpos : 0 < (dur p).toNat := BitVec.lt_def.1 (dur_pos p)
  have hlast := emits_replicate h hi ((dur p).toNat - 1) (by omega)
  rwa [Nat.sub_add_cancel hpos, BitVec.ofNat_toNat, BitVec.setWidth_eq] at hlast

/-! From one phase to the next -/

theorem after_tick_of_ready_eq_flight {s : State} (h : inv s = true) (hr : s.ready = true) :
    after .tick s = flight s .hm 1#5 0#6 := by
  obtain ⟨-, hs, -, hi, -⟩ := rest_of_ready h hr
  rw [after_tick_of_ready h hr, flight, ← hs, ← hi]
  rfl

theorem after_tick_flight_dur (s : State) (p : Phase) {i : BitIndex} (hi : i ≤ 32#6) :
    after .tick (flight s p (dur p) i) = respond 0#32 (cascade cascadeBound (flight s p (dur p) i)) :=
  after_tick_flight s (BitVec.le_refl _) hi

theorem after_tick_flight_hm (s : State) : after .tick (flight s .hm (dur .hm) 0#6) = flight s .hs 1#5 0#6 := by
  rw [after_tick_flight_dur s .hm (by decide), cascade_hm _ rfl]
  rfl

/-- The state that the TICK after `n` whole bits comes to: the next data-mark, or, at the end of the data under the
default parameter, the footer-mark (R69). -/
def afterBits (s : State) (n : Nat) : State :=
  if n = 32 ∧ s.finalDmEmits = false then flight s .fm 1#5 32#6 else flight s .dm 1#5 (BitVec.ofNat 6 n)

theorem afterBits_of_lt (s : State) {n : Nat} (hn : n < 32) :
    afterBits s n = flight s .dm 1#5 (BitVec.ofNat 6 n) :=
  if_neg fun h => absurd h.1 (Nat.ne_of_lt hn)

theorem after_tick_flight_hs (s : State) : after .tick (flight s .hs (dur .hs) 0#6) = afterBits s 0 := by
  rw [after_tick_flight_dur s .hs (by decide), cascade_hs _ rfl]
  rfl

/-- The cascade of a data space whose duration is used up (R70, R71). -/
theorem cascade_space (b : Bool) {s : State} (hs : s.state = phaseCode (spacePhase b))
    (ht : s.ticks = dur (spacePhase b)) :
    cascade cascadeBound s
      = if s.index = 32#6 ∧ s.finalDmEmits = false then emit .fm (enter .fm (enter .dm s))
        else emit .dm (enter .dm s) := by
  cases b with
  | true => exact (cascade_dhs s hs).trans (if_pos ht)
  | false => exact (cascade_dls s hs).trans (if_pos ht)

/-- The end of a bit's data space (R69, R70, R71). -/
theorem after_tick_flight_space (s : State) (b : Bool) {n : Nat} (hn : n ≤ 32) :
    after .tick (flight s (spacePhase b) (dur (spacePhase b)) (BitVec.ofNat 6 n)) = afterBits s n := by
  rw [after_tick_flight_dur s _ (by bv_omega), cascade_space b rfl rfl, flight_index, flight_finalDmEmits]
  by_cases hlast : n = 32 ∧ s.finalDmEmits = false
  · obtain ⟨rfl, hf⟩ := hlast
    rw [afterBits, if_pos ⟨rfl, hf⟩, if_pos ⟨rfl, hf⟩]
    rfl
  · have hgoes : ¬(BitVec.ofNat 6 n = 32#6 ∧ s.finalDmEmits = false) := fun ⟨hi, hf⟩ => hlast ⟨by bv_omega, hf⟩
    rw [afterBits, if_neg hlast, if_neg hgoes]
    rfl

/-- The end of a bit's data-mark: the bit is counted and its data space entered (R69). -/
theorem after_tick_flight_dm (s : State) {n : Nat} (hn : n < 32) :
    after .tick (flight s .dm (dur .dm) (BitVec.ofNat 6 n))
      = flight s (spacePhase (s.frame.getLsbD n)) 1#5 (BitVec.ofNat 6 (n + 1)) := by
  have hi : BitVec.ofNat 6 n ≤ 31#6 := by bv_omega
  rw [after_tick_flight_dur s .dm (by bv_omega), cascade_dm_of_bit rfl rfl hi, flight_frame, flight_index,
    BitVec.toNat_ofNat, Nat.mod_eq_of_lt (by omega), BitVec.ofNat_add]
  rfl

theorem after_tick_flight_dm_end (s : State) : after .tick (flight s .dm (dur .dm) 32#6) = flight s .fm 1#5 32#6 := by
  rw [after_tick_flight_dur s .dm (by decide), cascade_dm _ rfl, if_pos ⟨rfl, .inr rfl⟩]
  rfl

theorem after_tick_flight_fm (s : State) : after .tick (flight s .fm (dur .fm) 32#6) = flight s .fs 1#5 32#6 := by
  rw [after_tick_flight_dur s .fm (by decide), cascade_fm _ rfl]
  rfl

/-- The completion tick leaves the reset configuration in which the frame of `s` was deposited (R73, R77). -/
theorem after_tick_flight_fs {s : State} (h : inv s = true) (hr : s.ready = true) :
    after .tick (flight s .fs (dur .fs) 32#6) = { s with frame := 0, ready := false, rsp := some 0 } := by
  obtain ⟨hc, hs, ht, hi, hg⟩ := rest_of_ready h hr
  rw [after_tick_flight_dur s .fs (by decide), (cascade_fs _ rfl).trans (if_pos rfl)]
  simp [respond, complete, flight, lvl, hc, hs, ht, hi, hg, cont_of_inv h]

/-! The whole frame -/

/-- One bit: its data-mark, and its data space to the end (R76). -/
theorem emits_bit {s s₀ : State} {n : Nat} (h : after .tick s₀ = afterBits s n) (hn : n < 32) :
    ∃ t, Emits s₀ (bitTrace s.frame n) t ∧ after .tick t = afterBits s (n + 1) := by
  rw [afterBits_of_lt s hn] at h
  have hspace := emits_phase (after_tick_flight_dm s hn) (by bv_omega)
  exact ⟨_, (emits_one h).append hspace, after_tick_flight_space s _ hn⟩

theorem dataTrace_range_succ (f : Frame) (n : Nat) :
    dataTrace f (List.range (n + 1)) = dataTrace f (List.range n) ++ bitTrace f n := by
  simp [dataTrace, List.range_succ]

/-- The first `n` bits, one after another (R76). -/
theorem emits_data {s s₀ : State} (h : after .tick s₀ = afterBits s 0) (n : Nat) (hn : n ≤ 32) :
    ∃ t, Emits s₀ (dataTrace s.frame (List.range n)) t ∧ after .tick t = afterBits s n := by
  induction n with
  | zero => exact ⟨s₀, .nil s₀, h⟩
  | succ n ih =>
    obtain ⟨t, hdata, ht⟩ := ih (by omega)
    obtain ⟨u, hbit, hu⟩ := emits_bit ht hn
    exact ⟨u, dataTrace_range_succ s.frame n ▸ hdata.append hbit, hu⟩

theorem emits_footer {s s₀ : State} (h : after .tick s₀ = flight s .fm 1#5 32#6) :
    Emits s₀ [(phaseCode .fm, true), (phaseCode .fs, false)] (flight s .fs (dur .fs) 32#6) :=
  (emits_one h).append (emits_one (after_tick_flight_fm s))

/-- The periods after the data, for both values of FINAL_DM_EMITS (R7, R76). -/
theorem emits_tail {s s₀ : State} (h : after .tick s₀ = afterBits s 32) :
    Emits s₀ (tailTrace s.finalDmEmits) (flight s .fs (dur .fs) 32#6) := by
  cases hf : s.finalDmEmits with
  | false =>
    rw [afterBits, if_pos ⟨rfl, hf⟩] at h
    exact emits_footer h
  | true =>
    rw [afterBits, if_neg (by simp [hf])] at h
    exact (emits_one h).append (emits_footer (after_tick_flight_dm_end s))

/-- From its pickup on a deposited frame shows exactly the table of R76, and comes to the end of footer-space. -/
theorem emits_frame {s : State} (h : inv s = true) (hr : s.ready = true) :
    Emits s (frameTrace s.finalDmEmits s.frame) (flight s .fs (dur .fs) 32#6) := by
  have hmark := emits_phase (after_tick_of_ready_eq_flight h hr) (by decide)
  have hspace := emits_phase (after_tick_flight_hm s) (by decide)
  obtain ⟨t, hdata, ht⟩ := emits_data (after_tick_flight_hs s) 32 le_rfl
  rw [frameTrace_eq]
  exact hmark.append (hspace.append (hdata.append (emits_tail ht)))

/-- The TICK after the last emission completes the frame (R77). -/
theorem ticksFrom_emissions_succ {s : State} (h : inv s = true) (hr : s.ready = true) :
    ticksFrom (emissions s.finalDmEmits s.frame + 1) s = { s with frame := 0, ready := false, rsp := some 0 } := by
  rw [ticksFrom_succ, ← length_frameTrace, (emits_frame h hr).ticksFrom_eq, after_tick_flight_fs h hr]

/-- Settles O43: `emits_frame`, whose table has `emissions` periods; the completion tick leaves the gate low. -/
theorem frameProducesItsPulseTrain : Obligations.FrameProducesItsPulseTrain := by
  intro s h hr
  obtain ⟨hc, -, -, -, hg⟩ := rest_of_ready h hr
  rw [ticksFrom_emissions_succ h hr, ← length_frameTrace]
  exact ⟨(emits_frame h hr).periods_eq, hg, hc⟩

/-- Settles O44: the frame is in flight after each TICK of `emits_frame`; then `ticksFrom_emissions_succ`. -/
theorem frameCompletesAtItsTick : Obligations.FrameCompletesAtItsTick := by
  intro s h hr
  rw [ticksFrom_emissions_succ h hr, ← length_frameTrace]
  exact ⟨(emits_frame h hr).completed_eq, rfl⟩

end Sys2Proof.Machine
end

section
/-! The gateway's events one by one (41_gateway.md R81 to R83): their words, and what each answers, writes and leaves. -/

namespace Sys2Proof.Machine

open Sys2Proof.Safety

/-! Words -/

/-- A word that names no event is recorded and taken away, with no response (R92, R93). -/
theorem raisesReserved_of_decode_eq_none {ev : EventWord} (h : decode (.event ev) = none) : raisesReserved ev := by
  intro s rest hc he
  obtain ⟨harrival, hafter⟩ := arrival_cons s ev rest he
  rw [step_eq_stepEvent s hc, stepEvent_of_some ev s harrival, hafter, applyWord_of_none ev _ h,
    raise_of_not_cont _ { s with events := rest } hc]

/-- A word with the op of an event that takes no operand names that event if its data is 0, and is refused if not (R49,
R51). -/
theorem decode_or_raisesReserved_of_op {i : Instr} {op : BitVec 3} {ev : EventWord}
    (hi : encode i = .event (eventWord op 0#32)) (h1 : op.toNat ≠ 1) (hop : ev.toNat / 2 ^ 32 = op.toNat) :
    (ev.toNat % 2 ^ 32 = 0 → decode (.event ev) = some i) ∧ (ev.toNat % 2 ^ 32 ≠ 0 → raisesReserved ev) := by
  refine ⟨fun hd => ?_, fun hd => raisesReserved_of_decode_eq_none ?_⟩
  · have hvalue : op.toNat * 2 ^ 32 + (0#32).toNat = op.toNat * 2 ^ 32 := Nat.add_zero _
    exact (decode_event_eq_some_iff hi hvalue ev).2 (by omega)
  · rw [decode_eq_none_iff, wellFormed_event_iff, hop]
    exact fun ⟨_, hdata⟩ => hdata.elim h1 hd

/-! INIT and DEPOSIT -/

/-- Settles O14: INIT by evaluation; its word by `decode_or_raisesReserved_of_op`. -/
theorem initResult : Obligations.InitResult :=
  ⟨fun _ => rfl, fun _ hop => decode_or_raisesReserved_of_op (op := 3#3) rfl (by decide) hop⟩

/-- Settles O15: DEPOSIT's word has op 1 and data `f`; it is accepted exactly in an idle block. -/
theorem depositResult : Obligations.DepositResult := by
  refine ⟨fun f ev => (decode_event_eq_some_iff rfl (by simp) ev).2, fun f s => ⟨fun h => ?_, fun h => ?_⟩⟩
  · exact (exec_eq_next_iff _ _ _).2 (after_deposit_of_idle f s ((idle_iff s).2 h))
  · have hbusy : idle s = false := by rwa [← idle_iff, Bool.not_eq_true] at h
    exact (exec_eq_next_iff _ _ _).2 (after_deposit_of_not_idle f s hbusy)

/-! STATUS -/

/-- Bit 0 of the status word is COMPLETED (R54). -/
theorem statusWord_getLsbD_completed (s : State) : (statusWord s).getLsbD 0 = s.completed := by
  simp [statusWord]

/-- Bit 1 of the status word is READY (R54). -/
theorem statusWord_getLsbD_ready (s : State) : (statusWord s).getLsbD 1 = s.ready := by
  simp [statusWord]

/-- Bits 31:3 of the status word read as zero (R54). -/
theorem statusWord_getLsbD_reserved (s : State) {k : Nat} (hk : 3 ≤ k) : (statusWord s).getLsbD k = false := by
  have h0 : k ≠ 0 := by omega
  have h1 : k - 1 ≠ 0 := by omega
  have h2 : k - 2 ≠ 0 := by omega
  simp [statusWord, h0, h1, h2]

/-- The status word of each kind of state that the invariants allow: idle, deposited, in flight (R30, R54). -/
theorem statusWord_of_inv {s : State} (h : inv s = true) :
    statusWord s = 0b101#32 ∨ statusWord s = 0b011#32 ∨ statusWord s = 0b000#32 := by
  obtain ⟨hc, -⟩ | ⟨p, hp⟩ := rest_or_inFlight_of_inv h
  · cases hr : s.ready with
    | false => exact .inl (statusWord_of_idle ((idle_iff s).2 ⟨hc, hr⟩))
    | true => exact .inr (.inl (by simp [statusWord, idle, hc, hr]))
  · exact .inr (.inr (by simp [statusWord, idle, hp.completed_eq, hp.ready_eq]))

/-- Settles O16: STATUS answers `statusWord` and nothing else; its word by `decode_or_raisesReserved_of_op`. -/
theorem statusResult : Obligations.StatusResult :=
  ⟨fun _ hop => decode_or_raisesReserved_of_op (op := 2#3) rfl (by decide) hop,
    fun s => ⟨statusWord s, rfl, statusWord_getLsbD_completed s, statusWord_getLsbD_ready s, statusWord_getLsbD_idle s,
      fun _ => statusWord_getLsbD_reserved s, statusWord_of_inv⟩⟩

end Sys2Proof.Machine
end

section
/-! The host loop SEND (30_encoding.md R60, 41_gateway.md R84, R85): its operands, and when it returns. -/

namespace Sys2Proof.Machine

/-- Settles O53: the fields of an assembled frame (`assembledFrameFields`); a port reads its value modulo `2 ^ width`. -/
theorem sendCutsItsOperands : Obligations.SendCutsItsOperands := by
  refine ⟨fun a c => ?_, by decide⟩
  obtain ⟨-, haddress, hcommand, -⟩ := assembledFrameFields (BitVec.ofNat 16 a) (BitVec.ofNat 8 c)
  refine ⟨haddress, hcommand, ?_⟩
  have haddr : BitVec.ofNat 16 (a % 2 ^ 16) = BitVec.ofNat 16 a := BitVec.eq_of_toNat_eq (by simp)
  have hcmd : BitVec.ofNat 8 (c % 2 ^ 8) = BitVec.ofNat 8 c := BitVec.eq_of_toNat_eq (by simp)
  rw [sendFrame, sendFrame, haddr, hcmd]

theorem sendTask_toNat (a : BitVec 16) (c : BitVec 8) : sendTask a.toNat c.toNat = .send (assemble a c) := by
  simp [sendTask, sendFrame]

/-- SEND's loop ends on acceptance, which needs an idle block (R60, R81). -/
theorem taskReturns_send (f : Frame) (s : State) : taskReturns (.send f) (after (.deposit f) s) = idle s := by
  rw [taskReturns, after_deposit_rsp]
  cases idle s <;> simp [taskBit]

/-- An attempt of SEND that finds the block idle hands the frame over, and SEND returns (R84). -/
theorem runTask_send_of_idle (f : Frame) {others : List Instr} (rest : List (List Instr)) {s : State}
    (h : idle (afterAll others s) = true) :
    runTask (.send f) (others :: rest) s
      = (true, respond 1#32 { afterAll others s with frame := f, ready := true }) := by
  rw [runTask_cons, taskEvent, taskReturns_send, if_pos h, after_deposit_of_idle f _ h]

/-- An attempt of SEND that finds the block busy is rejected, and the loop goes on (R84, R88). -/
theorem runTask_send_of_not_idle (f : Frame) {others : List Instr} (rest : List (List Instr)) {s : State}
    (h : idle (afterAll others s) = false) :
    runTask (.send f) (others :: rest) s = runTask (.send f) rest (respond 0#32 (afterAll others s)) := by
  rw [runTask_cons, taskEvent, taskReturns_send, if_neg (by simp [h]), after_deposit_of_not_idle f _ h]

/-- Where SEND has returned, its frame has just been accepted, whatever the other agents did (R84). -/
theorem accepted_of_runTask_send {f : Frame} {l : List (List Instr)} {s t : State}
    (h : runTask (.send f) l s = (true, t)) :
    t.frame = f ∧ t.ready = true ∧ t.completed = true ∧ t.rsp = some 1 := by
  induction l generalizing s with
  | nil => simp [runTask] at h
  | cons others rest ih =>
    cases hidle : idle (afterAll others s) with
    | true =>
      rw [runTask_send_of_idle f rest hidle, Prod.mk.injEq] at h
      exact h.2 ▸ ⟨rfl, rfl, ((idle_iff _).1 hidle).1, rfl⟩
    | false => exact ih (runTask_send_of_not_idle f rest hidle ▸ h)

/-- Settles O54: one turn of the loop in an idle and in a busy block; induction over the schedule for the return. -/
theorem sendReturnsOnAcceptance : Obligations.SendReturnsOnAcceptance := by
  intro a c
  rw [sendTask_toNat]
  exact ⟨fun others rest s => ⟨runTask_send_of_idle _ rest, runTask_send_of_not_idle _ rest⟩,
    fun _ _ _ => accepted_of_runTask_send⟩

end Sys2Proof.Machine
end

section
/-! A deposited frame among host events (20_memory.md R42, 41_gateway.md R87 to R90): up to its completion tick a host
event changes the response alone, which no TICK reads; so the TICKs run as if alone, and a second frame waits. -/

namespace Sys2Proof.Machine

open Sys2Proof.Safety

/-! No TICK reads the response -/

/-- The state with another response in place of its own. -/
def withRsp (r : Option Word) (s : State) : State := { s with rsp := r }

theorem timedStep_withRsp (p q : Phase) (r : Option Word) (s : State) :
    timedStep p q (withRsp r s) = withRsp r (timedStep p q s) := by
  rw [timedStep, timedStep, apply_ite (withRsp r)]
  rfl

theorem phaseStep_withRsp (p : Phase) (r : Option Word) (s : State) :
    phaseStep p (withRsp r s) = withRsp r (phaseStep p s) := by
  cases p with
  | dm =>
    simp only [phaseStep, stepDm, apply_ite (withRsp r)]
    rfl
  | fs =>
    simp only [phaseStep, stepFs, apply_ite (withRsp r)]
    rfl
  | _ => exact timedStep_withRsp _ _ r s

theorem cascade_withRsp (n : Nat) (r : Option Word) (s : State) :
    cascade n (withRsp r s) = withRsp r (cascade n s) := by
  induction n generalizing s with
  | zero => rfl
  | succ n ih =>
    cases hp : phaseOfCode s.state with
    | none => rw [cascade_of_reserved _ s hp, cascade_of_reserved _ (withRsp r s) hp]
    | some p =>
      have hs := (phaseOfCode_eq_some _ _).1 hp
      rw [cascade_succ n p s hs, cascade_succ n p (withRsp r s) hs, phaseStep_withRsp, ih, apply_ite (withRsp r)]
      rfl

/-- A cascade reads neither the response of the last event nor whether a cascade is open (R62). -/
theorem cascade_respond {p : Phase} {s : State} (v : Word) (h : s.state = phaseCode p) :
    cascade cascadeBound (respond v s) = withRsp (some v) (cascade cascadeBound s) :=
  (cascade_open (n := 2) (s := withRsp (some v) s) h false).trans (cascade_withRsp _ _ s)

theorem pickup_respond (v : Word) (s : State) : pickup (respond v s) = respond v (pickup s) := by
  rw [pickup, pickup, apply_ite (respond v)]
  rfl

/-- A TICK after a response does what it does without it (R53, R62). -/
theorem after_tick_respond (v : Word) (s : State) : after .tick (respond v s) = after .tick s := by
  rw [← exec_eq_next_iff, ← exec_eq_after .tick s]
  cases hw : wf s with
  | false =>
    have hw' : wf (respond v s) = false := hw
    exact (if_pos hw').trans (if_pos hw).symm
  | true =>
    obtain ⟨p, hp, -⟩ := (wf_iff s).1 hw
    have hw' : wf (respond v s) = true := hw
    have hpick : (pickup s).state = phaseCode p := by rwa [pickup_state]
    rw [exec, execTick, if_neg (by simp [hw']), pickup_respond, cascade_respond v hpick]
    exact (if_neg (by simp [hw])).symm

theorem ticksFrom_succ_respond (n : Nat) (v : Word) (s : State) :
    ticksFrom (n + 1) (respond v s) = ticksFrom (n + 1) s :=
  congrArg (ticksFrom n) (after_tick_respond v s)

theorem registers_ticksFrom_respond (n : Nat) (v : Word) (s : State) :
    registers (ticksFrom n (respond v s)) = registers (ticksFrom n s) := by
  cases n with
  | zero => rfl
  | succ n => rw [ticksFrom_succ_respond]

/-! Host events while the block is busy -/

theorem idle_eq_of_registers_eq {s t : State} (h : registers s = registers t) : idle s = idle t :=
  idle_congr (congrArg Registers.completed h) (congrArg Registers.ready h)

/-- In a busy block a host event only responds: a DEPOSIT is rejected, a STATUS answers its word (R40, R88). -/
theorem after_host_of_not_idle {i : Instr} {s : State} (hi : agentOf i = some .host) (h : idle s = false) :
    ∃ v, after i s = respond v s := by
  obtain ⟨f, rfl⟩ | rfl := eq_deposit_or_status_of_host hi
  · exact ⟨0#32, after_deposit_of_not_idle f s h⟩
  · exact ⟨statusWord s, after_status s⟩

/-- As long as the TICKs of a list leave the block busy, the host events among them change no register (R87, R88). -/
theorem registers_afterAll_of_busy {l : List Instr} {s : State} (hl : ∀ i ∈ l, i = .tick ∨ agentOf i = some .host)
    (hbusy : ∀ k ≤ l.countP (fun i => decide (i = .tick)), idle (ticksFrom k s) = false) :
    registers (afterAll l s) = registers (ticksFrom (l.countP (fun i => decide (i = .tick))) s) := by
  induction l generalizing s with
  | nil => rfl
  | cons i rest ih =>
    obtain ⟨hi, hrest⟩ := List.forall_mem_cons.1 hl
    obtain rfl | hhost := hi
    · rw [List.countP_cons_of_pos (by simp)] at hbusy ⊢
      exact ih hrest fun k hk => hbusy (k + 1) (Nat.succ_le_succ hk)
    · have hne : i ≠ .tick := by
        rintro rfl
        simp [agentOf] at hhost
      rw [List.countP_cons_of_neg (by simp [hne])] at hbusy ⊢
      have hnow : idle s = false := hbusy 0 (Nat.zero_le _)
      obtain ⟨v, hv⟩ := after_host_of_not_idle hhost hnow
      rw [afterAll, hv, ih hrest, registers_ticksFrom_respond]
      exact fun k hk => (idle_eq_of_registers_eq (registers_ticksFrom_respond k v s)).trans (hbusy k hk)

/-- From its deposit to its last emission a frame keeps the block busy (R42, R77). -/
theorem idle_ticksFrom_of_le_emissions {s : State} (h : inv s = true) (hr : s.ready = true) {k : Nat}
    (hk : k ≤ emissions s.finalDmEmits s.frame) : idle (ticksFrom k s) = false := by
  cases k with
  | zero => simp [ticksFrom, idle, hr]
  | succ k =>
    have hc := (frameCompletesAtItsTick s h hr).1 (k + 1) (Nat.le_add_left 1 k) hk
    simp [idle, hc]

/-- Settles O48: `registers_afterAll_of_busy`, where the frame keeps the block busy up to its last emission. -/
theorem hostEventsNeverDisturbAFrame : Obligations.HostEventsNeverDisturbAFrame :=
  fun _ _ h hr hl hcount =>
    registers_afterAll_of_busy hl fun _ hk => idle_ticksFrom_of_le_emissions h hr (hk.trans hcount)

/-! SEND against a frame in flight -/

/-- As long as the TICKs leave the block busy, SEND goes on with one TICK before each attempt, and its rejected attempts
leave the next TICK what it would be without them (R88, R90). -/
theorem runTask_send_of_busy (g : Frame) {n : Nat} {s : State} (rest : List (List Instr))
    (hbusy : ∀ k ≤ n, idle (ticksFrom k s) = false) :
    ∃ t, runTask (.send g) (List.replicate n [.tick] ++ rest) s = runTask (.send g) rest t
      ∧ after .tick t = ticksFrom (n + 1) s := by
  induction n generalizing s with
  | zero => exact ⟨s, rfl, rfl⟩
  | succ n ih =>
    have hattempt : idle (afterAll [.tick] s) = false := hbusy 1 (by omega)
    have hnext : ∀ k ≤ n, idle (ticksFrom k (respond 0#32 (after .tick s))) = false := fun k hk =>
      (idle_eq_of_registers_eq (registers_ticksFrom_respond k _ _)).trans (hbusy (k + 1) (by omega))
    obtain ⟨t, hrun, ht⟩ := ih hnext
    rw [List.replicate_succ, List.cons_append, runTask_send_of_not_idle g _ hattempt]
    exact ⟨t, hrun, ht.trans (ticksFrom_succ_respond n _ _)⟩

/-- Settles O57: SEND waits while the frame keeps the block busy (`runTask_send_of_busy`); the TICK after the last
emission leaves it idle. -/
theorem sendWaitsExactlyOneFrame : Obligations.SendWaitsExactlyOneFrame := by
  intro s g h hr
  have hbusy : ∀ k ≤ emissions s.finalDmEmits s.frame, idle (ticksFrom k s) = false :=
    fun _ hk => idle_ticksFrom_of_le_emissions h hr hk
  constructor
  · obtain ⟨t, hrun, -⟩ := runTask_send_of_busy g [] hbusy
    rw [List.append_nil] at hrun
    rw [hrun, runTask]
  · obtain ⟨t, hrun, ht⟩ := runTask_send_of_busy g [[.tick]] hbusy
    have hidle : idle (afterAll [.tick] t) = true := by
      rw [afterAll, afterAll, ht, ticksFrom_emissions_succ h hr, idle_iff]
      exact ⟨(rest_of_ready h hr).1, rfl⟩
    rw [List.replicate_succ', hrun, runTask_send_of_idle g [] hidle]
    exact ⟨_, rfl, rfl, rfl⟩

/-! Two frames, one after the other -/

theorem inv_ticksFrom {s : State} (n : Nat) (h : inv s = true) : inv (ticksFrom n s) = true := by
  induction n generalizing s with
  | zero => exact h
  | succ n ih => exact ih (inv_after_tick h)

/-- A frame deposited in an idle block sends its whole pulse train (R76, R81). -/
theorem periods_after_deposit_of_idle (b : Frame) {s : State} (h : inv s = true) (hidle : idle s = true) :
    periods (emissions s.finalDmEmits b) (after (.deposit b) s) = frameTrace s.finalDmEmits b := by
  have hinv := inv_after_deposit b h
  rw [after_deposit_of_idle b s hidle] at hinv ⊢
  exact (frameProducesItsPulseTrain _ hinv rfl).1

/-- A frame ends on the low gate of footer-space (R76). -/
theorem gate_ticksFrom_emissions {s : State} (h : inv s = true) (hr : s.ready = true) :
    (ticksFrom (emissions s.finalDmEmits s.frame) s).gate = false := by
  rw [← length_frameTrace, (emits_frame h hr).ticksFrom_eq]
  rfl

/-- Settles O49: A keeps the block busy to its last emission; its completion tick leaves the block idle and the gate
low, where B is accepted and sent whole. -/
theorem backToBackFramesNeverInterleave : Obligations.BackToBackFramesNeverInterleave := by
  intro s b h hr
  obtain ⟨hc, -, -, -, hg⟩ := rest_of_ready h hr
  have hdone := ticksFrom_emissions_succ h hr
  have hinv := inv_ticksFrom (emissions s.finalDmEmits s.frame + 1) h
  have hidle : idle (ticksFrom (emissions s.finalDmEmits s.frame + 1) s) = true := by
    rw [hdone, idle_iff]
    exact ⟨hc, rfl⟩
  have htrain := periods_after_deposit_of_idle b hinv hidle
  refine ⟨fun k hk => ?_, gate_ticksFrom_emissions h hr, ?_, ?_, ?_⟩
  · rw [after_deposit_rsp, idle_ticksFrom_of_le_emissions h hr hk]
    rfl
  · rw [hdone]
    exact hg
  · rw [after_deposit_rsp, hidle]
    rfl
  · rw [hdone] at htrain ⊢
    exact htrain

end Sys2Proof.Machine
end

section
/-! The model faults (60_exceptions.md R92 to R95): what one step can add to the fault record, and that SEND against a
stopped heartbeat never returns. -/

namespace Sys2Proof.Machine

open Sys2Proof.Safety

/-! What a step adds to the fault record -/

@[simp] theorem registers_raise (e : Fault) (s : State) : registers (raise e s) = registers s := rfl

@[simp] theorem registers_afterArrival (s : State) : registers (afterArrival s) = registers s := by
  simp [registers]

@[simp] theorem wf_afterArrival (s : State) : wf (afterArrival s) = wf s := by
  simp [wf]

@[simp] theorem corruptInfo_afterArrival (s : State) : corruptInfo (afterArrival s) = corruptInfo s := by
  simp [corruptInfo]

/-- A phase step raises nothing (R67 to R73). -/
@[simp] theorem phaseStep_faults (p : Phase) (s : State) : (phaseStep p s).faults = s.faults := by
  obtain ⟨-, hfaults, -⟩ := phaseStepFrame p s (phaseStep p s) (exec_phaseInstr p s)
  exact hfaults

/-- Only a TICK of an ill-formed block raises a fault; every other instruction leaves the record (R65, R94). -/
theorem after_faults_cases (i : Instr) (s : State) :
    (after i s).faults = s.faults
    ∨ (wf s = false ∧ after i s = raise (.corruptState (corruptInfo s)) s) := by
  obtain rfl | ⟨f, rfl⟩ | rfl | rfl | ⟨p, rfl⟩ := instr_cases i
  · obtain hraise | ⟨-, -, -, ht⟩ | ⟨hwf, -, ht⟩ := after_tick_cases s
    · exact .inr hraise
    · exact .inl (ht ▸ rfl)
    · obtain ⟨p, hp, -⟩ := (wf_iff s).1 hwf
      obtain ⟨hfaults, -⟩ := cascade_faults_events p (pickup s) (by rwa [pickup_state])
      exact .inl (by rw [ht, respond_faults, hfaults, pickup_faults])
  · rw [after_deposit]
    split <;> exact .inl rfl
  · exact .inl rfl
  · exact .inl rfl
  · exact .inl (by rw [after_phaseInstr, phaseStep_faults])

/-- The fault that a step from `s` may raise: ReservedEvent of the arriving word, which names no event (R93), or
CorruptState of `s` itself, which is ill formed (R94). -/
def RaisedFrom (s : State) (e : Fault) : Prop :=
  (∃ ev, e = .reservedEvent ev ∧ arrival s = some ev ∧ decode (.event ev) = none)
  ∨ (e = .corruptState (corruptInfo s) ∧ wf s = false)

/-- A step leaves the fault record, or it is one raise, from the state it starts in or from that state less its event
(R92). -/
theorem step_faults_cases {s t : State} (h : step s = .next t) :
    t.faults = s.faults
    ∨ ∃ e u, RaisedFrom s e ∧ t = raise e u ∧ u.faults = s.faults ∧ registers u = registers s := by
  cases hc : s.cont with
  | false =>
    obtain ⟨ev, i, -, -, h'⟩ | ⟨ev, ha, hd, h'⟩ | ⟨-, h'⟩ := step_cases s hc
    all_goals cases h.symm.trans h'
    · obtain hkept | ⟨hwf, hraise⟩ := after_faults_cases i (afterArrival s)
      · exact .inl (hkept.trans (afterArrival_faults s))
      · rw [wf_afterArrival] at hwf
        rw [corruptInfo_afterArrival] at hraise
        exact .inr ⟨_, _, .inr ⟨rfl, hwf⟩, hraise, afterArrival_faults s, registers_afterArrival s⟩
    · exact .inr ⟨_, _, .inl ⟨ev, rfl, ha, hd⟩, rfl, afterArrival_faults s, registers_afterArrival s⟩
    · exact .inl (afterArrival_faults s)
  | true =>
    obtain ⟨p, -, h'⟩ | ⟨hs, h'⟩ := step_cascade_cases s hc
    all_goals cases h.symm.trans h'
    · split <;> exact .inl (phaseStep_faults p s)
    · exact .inr ⟨_, s, .inr ⟨rfl, wf_eq_false_of_corrupt (.inl hs)⟩, rfl, rfl, rfl⟩

/-- Settles O40: a step that touches the record is a raise (`step_faults_cases`); a step always answers a next state. -/
theorem raiseAppendsAndGoesOn : Obligations.RaiseAppendsAndGoesOn := by
  refine ⟨fun s t h => ?_, fun _ => rfl, fun _ => rfl⟩
  obtain hkept | ⟨e, u, hfrom, rfl, hfaults, hregs⟩ := step_faults_cases h
  · exact .inl hkept
  · exact .inr ⟨e, by rw [raise_faults, hfaults], hregs, rfl, step_next _, hfrom⟩

/-- Settles O39: of the two faults a step may raise, CorruptState needs an ill-formed state, which the invariants
exclude (`wf_of_inv`). -/
theorem invariantsExcludeCorruptState : Obligations.InvariantsExcludeCorruptState := by
  intro s t hinv h
  obtain hkept | ⟨e, u, ⟨ev, rfl, -, hd⟩ | ⟨-, hwf⟩, rfl, hfaults, -⟩ := step_faults_cases h
  · exact .inl hkept
  · exact .inr ⟨ev, by rw [raise_faults, hfaults], hd⟩
  · simp [wf_of_inv hinv] at hwf

/-- Settles O9: such a word names no event (`decoderNamesOneEventOrNone`), and a word that names none is refused. -/
theorem reservedWordRaisesReservedEvent : Obligations.ReservedWordRaisesReservedEvent := by
  refine ⟨fun ev hvalue => ?_, fun _ => rfl⟩
  obtain ⟨-, -, -, -, hnone⟩ := decoderNamesOneEventOrNone ev
  exact raisesReserved_of_decode_eq_none (hnone.2 hvalue)

/-! SEND with no TICK -/

/-- Host events alone change no register of a busy block (R88, R95). -/
theorem registers_afterAll_of_host {l : List Instr} {s : State} (hl : ∀ i ∈ l, agentOf i = some .host)
    (hbusy : idle s = false) : registers (afterAll l s) = registers s := by
  have hticks : l.countP (fun i => decide (i = .tick)) = 0 := by
    refine List.countP_eq_zero.2 fun i hi => ?_
    obtain ⟨f, rfl⟩ | rfl := eq_deposit_or_status_of_host (hl i hi) <;> simp
  rw [registers_afterAll_of_busy (fun i hi => .inr (hl i hi)) (by simpa [hticks, ticksFrom] using hbusy), hticks]
  rfl

/-- A busy block rejects every attempt of SEND, as long as host events alone come between them (R88, R95). -/
theorem runTask_send_of_host (f : Frame) {l : List (List Instr)} {s : State}
    (hl : ∀ others ∈ l, ∀ i ∈ others, agentOf i = some .host) (hbusy : idle s = false) :
    (runTask (.send f) l s).1 = false ∧ registers (runTask (.send f) l s).2 = registers s := by
  induction l generalizing s with
  | nil => exact ⟨rfl, rfl⟩
  | cons others rest ih =>
    obtain ⟨hothers, hrest⟩ := List.forall_mem_cons.1 hl
    have hregs := registers_afterAll_of_host hothers hbusy
    have hstill : idle (afterAll others s) = false := (idle_eq_of_registers_eq hregs).trans hbusy
    rw [runTask_send_of_not_idle f rest hstill, ← hregs]
    exact ih hrest hstill

/-- Settles O56: a deposited frame keeps the block busy, and nothing but a TICK or an INIT would end that. -/
theorem stoppedHeartbeatSpinsForEver : Obligations.StoppedHeartbeatSpinsForEver :=
  fun f _ s hr hl => runTask_send_of_host f hl (by simp [idle, hr])

end Sys2Proof.Machine
end

section
/-! INIT during a frame (70_reset_and_hazards.md R118): the block is at rest at once. -/

namespace Sys2Proof.Machine

open Sys2Proof.Safety

/-- INIT leaves the block idle, from every state (R83). -/
theorem idle_after_init (s : State) : idle (after .init s) = true := rfl

/-- An idle block holds the pin low (R31, R75). -/
theorem irOut_of_idle {s : State} (hinv : inv s = true) (hidle : idle s = true) (carrier : Bool) :
    irOut s carrier = false := by
  obtain ⟨-, hgate⟩ := idleTickWritesNothing
  obtain ⟨-, hlow⟩ := pinFollowsTheGate s carrier
  obtain ⟨hc, -⟩ := (idle_iff s).1 hidle
  exact hlow (hgate s hinv hc)

/-- A TICK in an idle block changes no register (R64, R109). -/
theorem registers_after_tick_of_idle {s : State} (hinv : inv s = true) (hidle : idle s = true) :
    registers (after .tick s) = registers s := by
  obtain ⟨htick, -⟩ := idleTickWritesNothing
  obtain ⟨hc, hr⟩ := (idle_iff s).1 hidle
  rw [(exec_eq_next_iff _ _ _).1 (htick s (wf_of_inv hinv) hr hc)]
  rfl

/-- Settles O51: INIT leaves the block idle and the invariants met, from every state; the pin, the status word and the
TICK are then those of any idle block. -/
theorem initCutsTheFrameOff : Obligations.InitCutsTheFrameOff := by
  intro s
  have hinv := inv_after_init s
  have hidle := idle_after_init s
  refine ⟨irOut_of_idle hinv hidle, ?_, registers_after_tick_of_idle hinv hidle⟩
  rw [after_status, respond_rsp, statusWord_of_idle hidle]
  rfl

end Sys2Proof.Machine
end
